-- ==== Sys2Proof/Word.lean ====
section
/-!
DEFINITION. The plain data of the block: bytes, the closed enumerations the spec names (directions, button
identities, chip registers, step modes, physical quantities, bus commands) and the records that hold one entry
per member of an enumeration.
-/
namespace Sys2Proof

/-- One byte of the serial bus (00_scope.md R14: a byte is 8 bits). -/
abbrev Byte := BitVec 8

/-- 10_state.md R36: "forward/reverse, one bit". -/
inductive Direction where
  | reverse
  | forward
  deriving DecidableEq, Repr, Inhabited

/-- The four button identities in the document's listing order (00_scope.md R10, R17). -/
inductive ButtonId where
  | cw
  | ccw
  | stop
  | home
  deriving DecidableEq, Repr, Inhabited

/-- The ten chip registers of 30_encoding.md R88. -/
inductive Reg where
  | absolutePosition
  | mark
  | speed
  | acceleration
  | deceleration
  | maximumSpeed
  | minimumSpeed
  | fullStepSpeed
  | stepMode
  | status
  deriving DecidableEq, Repr, Inhabited

/-- The eight microstepping divisors of 10_state.md R36. -/
inductive StepMode where
  | m1
  | m2
  | m4
  | m8
  | m16
  | m32
  | m64
  | m128
  deriving DecidableEq, Repr, Inhabited

/-- The fifteen commands of 30_encoding.md R82, each with what the variable bits of its opcode byte carry
(R86: the register; R87: the direction). -/
inductive Command where
  | setParam (r : Reg)
  | getParam (r : Reg)
  | run (d : Direction)
  | move (d : Direction)
  | goTo
  | goToDir (d : Direction)
  | goHome
  | goMark
  | resetPosition
  | resetDevice
  | softStop
  | hardStop
  | softHiz
  | hardHiz
  | getStatus
  deriving DecidableEq, Repr, Inhabited

/-- The three transaction formats of 30_encoding.md R80. -/
inductive Format where
  | f0
  | fw
  | fr
  deriving DecidableEq, Repr

/-- One entry per button identity. -/
structure PerButton (α : Type) where
  cw : α
  ccw : α
  stop : α
  home : α
  deriving DecidableEq, Repr, Inhabited

/-- One entry per chip register. -/
structure PerReg (α : Type) where
  absolutePosition : α
  mark : α
  speed : α
  acceleration : α
  deceleration : α
  maximumSpeed : α
  minimumSpeed : α
  fullStepSpeed : α
  stepMode : α
  status : α
  deriving DecidableEq, Repr, Inhabited

/-- One entry per physical quantity of 42_unit_conversion.md R190. -/
structure PerQuantity (α : Type) where
  speed : α
  acceleration : α
  deceleration : α
  maximumSpeed : α
  minimumSpeed : α
  fullStepSpeed : α
  deriving DecidableEq, Repr, Inhabited

/-- The entry of one identity. -/
def PerButton.get {α : Type} (t : PerButton α) : ButtonId → α
  | .cw => t.cw
  | .ccw => t.ccw
  | .stop => t.stop
  | .home => t.home

/-- The table with the entry of one identity replaced. -/
def PerButton.set {α : Type} (t : PerButton α) (i : ButtonId) (x : α) : PerButton α :=
  match i with
  | .cw => { t with cw := x }
  | .ccw => { t with ccw := x }
  | .stop => { t with stop := x }
  | .home => { t with home := x }

/-- The entry of one register. -/
def PerReg.get {α : Type} (t : PerReg α) : Reg → α
  | .absolutePosition => t.absolutePosition
  | .mark => t.mark
  | .speed => t.speed
  | .acceleration => t.acceleration
  | .deceleration => t.deceleration
  | .maximumSpeed => t.maximumSpeed
  | .minimumSpeed => t.minimumSpeed
  | .fullStepSpeed => t.fullStepSpeed
  | .stepMode => t.stepMode
  | .status => t.status

/-- The table with the entry of one register replaced. -/
def PerReg.set {α : Type} (t : PerReg α) (r : Reg) (x : α) : PerReg α :=
  match r with
  | .absolutePosition => { t with absolutePosition := x }
  | .mark => { t with mark := x }
  | .speed => { t with speed := x }
  | .acceleration => { t with acceleration := x }
  | .deceleration => { t with deceleration := x }
  | .maximumSpeed => { t with maximumSpeed := x }
  | .minimumSpeed => { t with minimumSpeed := x }
  | .fullStepSpeed => { t with fullStepSpeed := x }
  | .stepMode => { t with stepMode := x }
  | .status => { t with status := x }

/-- The ten registers in the order of 30_encoding.md R88. -/
def Reg.all : List Reg :=
  [.absolutePosition, .mark, .speed, .acceleration, .deceleration,
   .maximumSpeed, .minimumSpeed, .fullStepSpeed, .stepMode, .status]

/-- Every command, with every value of its variable bits. -/
def Command.all : List Command :=
  Reg.all.map .setParam ++ Reg.all.map .getParam ++
  [.run .reverse, .run .forward, .move .reverse, .move .forward, .goTo,
   .goToDir .reverse, .goToDir .forward, .goHome, .goMark, .resetPosition, .resetDevice,
   .softStop, .hardStop, .softHiz, .hardHiz, .getStatus]

end Sys2Proof
end

