-- ==== Sys2Proof/Syntax.lean ====
section
/-!
DEFINITION. The instructions: one constructor per row of spec/opcode_table.json, in the table's order.
-/
namespace Sys2Proof

/-- The operations of the block (00_scope.md R1, 30_encoding.md R101). Integer operands are mathematical integers
(10_state.md R36, 92_eei_decisions.md D43), physical operands exact rationals (D23). A handler is named by a
reference number: its body is outside the block (40_edge_monitor.md R121). -/
inductive Instr where
  | setParam (reg : Reg) (v : Int)
  | getParam (reg : Reg)
  | run (dir : Direction) (rate : Int)
  | move (dir : Direction) (count : Int)
  | goTo (pos : Int)
  | goToDir (dir : Direction) (pos : Int)
  | goHome
  | goMark
  | resetPosition
  | resetDevice
  | softStop
  | hardStop
  | softHiz
  | hardHiz
  | getStatus
  | setAbsPos (v : Int)
  | getAbsPos
  | setMark (v : Int)
  | getMark
  | setSpeed (t : Int)
  | getSpeed
  | setAcc (t : Int)
  | getAcc
  | setDec (t : Int)
  | getDec
  | setMaxSpeed (t : Int)
  | getMaxSpeed
  | setMinSpeed (t : Int)
  | getMinSpeed
  | setFsSpd (t : Int)
  | getFsSpd
  | setStepMode (d : StepMode)
  | getStepMode
  | setStatus (v : Int)
  | getStatusNc
  | edge (id : ButtonId) (level : Bool)
  | pop
  | handlerReturn
  | registerHandler (h : Nat)
  | calculateSpeed (v : Rat)
  | parseSpeed (t : Int)
  | calculateAcceleration (v : Rat)
  | parseAcceleration (t : Int)
  | calculateDeceleration (v : Rat)
  | parseDeceleration (t : Int)
  | calculateMaxSpeed (v : Rat)
  | parseMaxSpeed (t : Int)
  | calculateMinSpeed (v : Rat)
  | parseMinSpeed (t : Int)
  | calculateFsSpd (v : Rat)
  | parseFsSpd (t : Int)
  | wait
  | approachHome
  | approachTarget (pos : Int)
  deriving DecidableEq, Repr, Inhabited

end Sys2Proof
end

