-- ==== Sys2Proof/Agents.lean ====
section
/-!
DEFINITION. The agents of 60_exceptions.md R270 and the steps each of them can take, as plain data: execution
contexts, button events, the state of the reference chip, and the actions a schedule is made of.
-/
namespace Sys2Proof

/-- The execution contexts of 60_exceptions.md R264: interrupt context, the Dispatcher Task, and any number of
other tasks (R270). -/
inductive Context where
  | interrupt
  | dispatcher
  | task (n : Nat)
  deriving DecidableEq, Repr, Inhabited

/-- 10_state.md R25: a button event, "transient value {identity, level}". -/
structure Event where
  id : ButtonId
  level : Bool
  deriving DecidableEq, Repr, Inhabited

/-- The state of the reference chip of 20_memory.md R67: `REG[a]` as one number per register, `LATCH` (the raw
latched bits), `MOVING`, and the live bits of the status word other than BUSY. -/
structure RefChip where
  regs : PerReg Nat
  latch : BitVec 16
  live : BitVec 16
  moving : Bool
  deriving DecidableEq, Repr, Inhabited

/-- One step of one agent (00_scope.md R16, 43_motion_engine.md R222). A motion-engine instance is named by its
caller, since a caller is suspended while its instance lives and so has at most one. -/
inductive Action where
  /-- The context calls the operation. -/
  | op (by' : Context) (i : Instr)
  /-- The context calls the operation whose transaction these bytes spell (30_encoding.md R93). -/
  | frame (by' : Context) (bytes : List Byte)
  /-- The edge interrupt of the line fires and samples the line (40_edge_monitor.md R111). -/
  | fire (i : ButtonId)
  /-- `SEEK(m)`. -/
  | seek (m : Context)
  /-- `ENTER_WAIT(m)`. -/
  | enterWait (m : Context)
  /-- `POLL(m)`. -/
  | poll (m : Context)
  /-- `RETURN(m)`. -/
  | resume (m : Context)
  /-- The environment changes the level of a line (10_state.md R34). -/
  | setLine (i : ButtonId) (level : Bool)
  /-- The chip ends a motion (20_memory.md R64, R67). -/
  | motionComplete
  /-- Events inside the chip change its state (20_memory.md R59 (c), R61); of the latched bits of `r` only the active
  ones have an effect (10_state.md R33 (a)). -/
  | chipStep (r : RefChip)
  deriving DecidableEq, Repr, Inhabited

end Sys2Proof
end

