-- ==== Sys2Proof/Config.lean ====
section
/-!
DEFINITION. The parameters of 00_scope.md R10 to R13 as records (their reference values stand in Decode.lean and
Machine/Reference.lean), and the free values: opaque constants that stand for what the environment chooses.
-/
namespace Sys2Proof

/-- Address, width and signedness of one chip register (10_state.md R31). -/
structure RegConst where
  addr : BitVec 5
  width : Nat
  signed : Bool
  deriving DecidableEq, Repr, Inhabited

/-- The status-word parameters of 30_encoding.md R95: `ST_HIZ_BIT`, `ST_BUSY_BIT`, `ST_DIR_BIT`, `ST_ACTIVE_LOW`,
`ST_LATCHED`. -/
structure StatusLayout where
  hizBit : Nat
  busyBit : Nat
  dirBit : Nat
  activeLow : BitVec 16
  latched : BitVec 16
  deriving DecidableEq, Repr, Inhabited

/-- The record `ChipConst` of 00_scope.md R11: the opcode base of every command, the position of the direction bit in
the opcode byte, the register map, the dummy byte and the status layout. -/
structure ChipConst where
  opcSetParam : Byte
  opcGetParam : Byte
  opcRun : Byte
  opcMove : Byte
  opcGoTo : Byte
  opcGoToDir : Byte
  opcGoHome : Byte
  opcGoMark : Byte
  opcResetPosition : Byte
  opcResetDevice : Byte
  opcSoftStop : Byte
  opcHardStop : Byte
  opcSoftHiz : Byte
  opcHardHiz : Byte
  opcGetStatus : Byte
  dirBitPos : Nat
  regs : PerReg RegConst
  dummy : Byte
  layout : StatusLayout
  deriving DecidableEq, Repr, Inhabited

/-- The parameters of one physical quantity (00_scope.md R12): scale `K_q`, offset `OFF_q`, bounds `TMIN_q` and
`TMAX_q`. -/
structure ConvConst where
  k : Rat
  off : Rat
  tmin : Nat
  tmax : Nat
  deriving DecidableEq, Repr, Inhabited

/-- The parameters of the step relation (10_state.md R35) that the block is constructed with: `CAP`,
`WAIT_CLEARING`, `ChipConst` and the conversion constants. -/
structure Params where
  cap : Nat
  waitClearing : Bool
  chip : ChipConst
  conv : PerQuantity ConvConst
  deriving DecidableEq, Repr, Inhabited

/-- The bit width `W` of a register. -/
def ChipConst.width (c : ChipConst) (r : Reg) : Nat := (c.regs.get r).width

/-- FREE VALUE (20_memory.md R65, R66): the byte the chip sends in a slot of a transaction, where nothing in the
state says which; the transaction is numbered by the counter of State, the slot by its place. -/
opaque Config.chipByte : Nat → Nat → Byte

/-- FREE VALUE (10_state.md R35, 60_exceptions.md R270): the step the environment and the scheduler choose when no
step is laid down in the state. -/
opaque Config.freeAction : Nat → Action

/-- FREE VALUE (20_memory.md R67, 41_command_codec.md R149): what RESET_DEVICE leaves in the reference chip. -/
opaque Config.freeChip : Nat → RefChip

/-- OPEN PARAMETER (00_scope.md R13): the yielding interval of `wait`; no rule depends on it. -/
opaque Config.pollInterval : Nat

end Sys2Proof
end

