-- ==== Sys2Proof/WellFormed.lean ====
section
/-!
DEFINITION. What the spec asks of an operand so that its field carries it whole, and of the parameters. No step
checks an operand: an operand that does not fit is truncated (41_command_codec.md R161).
-/
namespace Sys2Proof

/-- An integer fits a field of `w` bits: two's complement for a signed field, unsigned otherwise. -/
def fitsField (signed : Bool) (w : Nat) (v : Int) : Bool :=
  if signed then decide (-(2 ^ (w - 1) : Nat) ≤ v ∧ v < (2 ^ (w - 1) : Nat))
  else decide (0 ≤ v ∧ v < (2 ^ w : Nat))

/-- A value fits its register (10_state.md R31). -/
def fitsReg (c : ChipConst) (r : Reg) (v : Int) : Bool :=
  fitsField (c.regs.get r).signed (c.regs.get r).width v

/-- The instruction's operand fits the field that carries it (30_encoding.md R83, R90). -/
def Instr.wf (c : ChipConst) : Instr → Bool
  | .setParam r v => fitsReg c r v
  | .run _ v => fitsField false (c.width .speed) v
  | .move _ v => fitsField false (c.width .absolutePosition) v
  | .goTo v => fitsField true (c.width .absolutePosition) v
  | .goToDir _ v => fitsField true (c.width .absolutePosition) v
  | .setAbsPos v => fitsReg c .absolutePosition v
  | .setMark v => fitsReg c .mark v
  | .setSpeed v => fitsReg c .speed v
  | .setAcc v => fitsReg c .acceleration v
  | .setDec v => fitsReg c .deceleration v
  | .setMaxSpeed v => fitsReg c .maximumSpeed v
  | .setMinSpeed v => fitsReg c .minimumSpeed v
  | .setFsSpd v => fitsReg c .fullStepSpeed v
  | .setStatus v => fitsReg c .status v
  | .approachTarget v => fitsField true (c.width .absolutePosition) v
  | .setStepMode _ => !(c.regs.get .stepMode).signed && decide (3 ≤ c.width .stepMode)
  | .getParam _ | .goHome | .goMark | .resetPosition | .resetDevice | .softStop | .hardStop
  | .softHiz | .hardHiz | .getStatus | .getAbsPos | .getMark | .getSpeed | .getAcc | .getDec
  | .getMaxSpeed | .getMinSpeed | .getFsSpd | .getStepMode | .getStatusNc | .edge _ _ | .pop
  | .handlerReturn | .registerHandler _ | .calculateSpeed _ | .parseSpeed _
  | .calculateAcceleration _ | .parseAcceleration _ | .calculateDeceleration _
  | .parseDeceleration _ | .calculateMaxSpeed _ | .parseMaxSpeed _ | .calculateMinSpeed _
  | .parseMinSpeed _ | .calculateFsSpd _ | .parseFsSpd _ | .wait | .approachHome => true

/-- Every register is at most 32 bits wide (00_scope.md R11, 10_state.md R31), and at least 1 bit, a bound the spec does
not give (DESIGN CHOICE, safe: notes/assumptions/24). -/
def ChipConst.widthsOk (c : ChipConst) : Bool :=
  Reg.all.all fun r => decide (1 ≤ c.width r ∧ c.width r ≤ 32)

/-- 30_encoding.md R84: `9 ≤ W_STATUS ≤ 16`. -/
def ChipConst.statusWidthOk (c : ChipConst) : Bool :=
  decide (9 ≤ c.width .status ∧ c.width .status ≤ 16)

/-- `hiz`, `busy` and `direction` are bits of the word (30_encoding.md R95) and live, not latched (R97); that they are
different from each other is the model's choice (DESIGN CHOICE, safe: notes/assumptions/24). -/
def StatusLayout.wf (l : StatusLayout) : Bool :=
  decide (l.hizBit < 16 ∧ l.busyBit < 16 ∧ l.dirBit < 16 ∧
    l.hizBit ≠ l.busyBit ∧ l.hizBit ≠ l.dirBit ∧ l.busyBit ≠ l.dirBit ∧
    l.latched.getLsbD l.hizBit = false ∧ l.latched.getLsbD l.busyBit = false ∧
    l.latched.getLsbD l.dirBit = false)

/-- What the document fixes of `ChipConst`: `OPC_GO_TO = 0x60` and the widths (00_scope.md R11); the direction bit is
a bit of the opcode byte (30_encoding.md R87). -/
def ChipConst.wf (c : ChipConst) : Bool :=
  decide (c.opcGoTo = 0x60#8) && decide (c.dirBitPos < 8) && c.widthsOk && c.statusWidthOk && c.layout.wf

/-- `K_q > 0` and `TMIN_q ≤ TMAX_q` (00_scope.md R12). -/
def ConvConst.wf (q : ConvConst) : Bool :=
  decide (0 < q.k ∧ q.tmin ≤ q.tmax)

/-- The parameters are ones the spec admits: `CAP ≥ 1` (R10), and the rest as above. -/
def Params.wf (p : Params) : Bool :=
  decide (1 ≤ p.cap) && p.chip.wf && p.conv.speed.wf && p.conv.acceleration.wf &&
    p.conv.deceleration.wf && p.conv.maximumSpeed.wf && p.conv.minimumSpeed.wf &&
    p.conv.fullStepSpeed.wf

end Sys2Proof
end

