-- ==== Sys2Proof/Decode.lean ====
section
/-!
DEFINITION. Bits and bytes of a transaction (00_scope.md R14, R15), the opcode and register maps at their reference
values (30_encoding.md R83, R89, R95), the decoder of a recorded transaction (R92, R93), the encoder (R80 to R91),
the step-mode code (R99) and the event word (R100).
-/
namespace Sys2Proof

/-! ### Fields and bytes -/

/-- `mask_W(v) = v mod 2^W` on the two's-complement representation (R14). -/
def mask (w : Nat) (v : Int) : Nat :=
  (v % ((2 ^ w : Nat) : Int)).toNat

/-- `sext_W(u)`: the `W`-bit value read as two's complement (R14). -/
def sext (w u : Nat) : Int :=
  if 2 ^ (w - 1) ≤ u then (u : Int) - ((2 ^ w : Nat) : Int) else (u : Int)

/-- `ceil(W/8)` (20_memory.md R55). -/
def nBytes (w : Nat) : Nat := (w + 7) / 8

/-- `be_bytes(n, v)`: the `n` low bytes of `v`, most significant first (R15). -/
def beBytes : Nat → Nat → List Byte
  | 0, _ => []
  | n + 1, v => BitVec.ofNat 8 (v / 256 ^ n) :: beBytes n v

/-- `be_value(bs)`: the number whose big-endian byte list is `bs` (R15). -/
def beValue : List Byte → Nat
  | [] => 0
  | b :: bs => b.toNat * 256 ^ bs.length + beValue bs

/-- The integer that a received `raw` number stands for: masked to `W` bits, then sign-extended if the field is
signed (30_encoding.md R91, 41_command_codec.md R162). -/
def fieldValue (signed : Bool) (w raw : Nat) : Int :=
  if signed then sext w (mask w raw) else (mask w raw : Int)

/-- The value of a register from the bytes of its response (41_command_codec.md R162). -/
def regValue (c : ChipConst) (r : Reg) (raw : Nat) : Int :=
  fieldValue (c.regs.get r).signed (c.regs.get r).width raw

/-! ### Reference values of the chip constants -/

/-- The register map of 10_state.md R31. -/
def referenceRegs : PerReg RegConst where
  absolutePosition := ⟨0x01#5, 22, true⟩
  mark := ⟨0x03#5, 22, true⟩
  speed := ⟨0x04#5, 20, false⟩
  acceleration := ⟨0x05#5, 12, false⟩
  deceleration := ⟨0x06#5, 12, false⟩
  maximumSpeed := ⟨0x07#5, 10, false⟩
  minimumSpeed := ⟨0x08#5, 13, false⟩
  fullStepSpeed := ⟨0x15#5, 10, false⟩
  stepMode := ⟨0x16#5, 8, false⟩
  status := ⟨0x19#5, 16, false⟩

/-- The status layout of 30_encoding.md R95. -/
def referenceLayout : StatusLayout where
  hizBit := 0
  busyBit := 1
  dirBit := 4
  activeLow := 0x7E02#16
  latched := 0x7F88#16

/-- `ChipConst` at the values of 30_encoding.md R83; `OPC_GO_TO = 0x60` is the document's, the rest are reference
values (PRESUMED, unsafe: notes/assumptions/1). -/
def referenceChip : ChipConst where
  opcSetParam := 0x00#8
  opcGetParam := 0x20#8
  opcRun := 0x50#8
  opcMove := 0x40#8
  opcGoTo := 0x60#8
  opcGoToDir := 0x68#8
  opcGoHome := 0x70#8
  opcGoMark := 0x78#8
  opcResetPosition := 0xD8#8
  opcResetDevice := 0xC0#8
  opcSoftStop := 0xB0#8
  opcHardStop := 0xB8#8
  opcSoftHiz := 0xA0#8
  opcHardHiz := 0xA8#8
  opcGetStatus := 0xD0#8
  dirBitPos := 0
  regs := referenceRegs
  dummy := 0x00#8
  layout := referenceLayout

/-! ### The step-mode code and the event word -/

/-- `encode_step_mode(d) = log2(d)` (R99). -/
def encodeStepMode : StepMode → Nat
  | .m1 => 0
  | .m2 => 1
  | .m4 => 2
  | .m8 => 3
  | .m16 => 4
  | .m32 => 5
  | .m64 => 6
  | .m128 => 7

/-- `decode_step_mode(r) = 2^(r[2:0])` (R99): the bits above bit 2 are ignored. -/
def decodeStepMode (r : Nat) : StepMode :=
  match r % 8 with
  | 0 => .m1
  | 1 => .m2
  | 2 => .m4
  | 3 => .m8
  | 4 => .m16
  | 5 => .m32
  | 6 => .m64
  | _ => .m128

/-- The divisor a step mode stands for (10_state.md R36: "`{1, 2, 4, 8, 16, 32, 64, 128}`"). -/
def StepMode.divisor : StepMode → Nat
  | .m1 => 1
  | .m2 => 2
  | .m4 => 4
  | .m8 => 8
  | .m16 => 16
  | .m32 => 32
  | .m64 => 64
  | .m128 => 128

/-- The identity codes of 00_scope.md R10. -/
def ButtonId.code : ButtonId → BitVec 2
  | .cw => 0#2
  | .ccw => 1#2
  | .stop => 2#2
  | .home => 3#2

/-- The identity of a code; every code is one (R10). -/
def ButtonId.ofCode (b : BitVec 2) : ButtonId :=
  match b.toNat with
  | 0 => .cw
  | 1 => .ccw
  | 2 => .stop
  | _ => .home

/-- The 3-bit event word: the identity code in bits 2..1, the level in bit 0 (R100). -/
def Event.toWord (e : Event) : BitVec 3 :=
  e.id.code ++ BitVec.ofBool e.level

/-- The event of a word; all eight words are legal (R100). -/
def Event.ofWord (w : BitVec 3) : Event :=
  ⟨ButtonId.ofCode (w.extractLsb' 1 2), w.getLsbD 0⟩

/-! ### Opcode bytes -/

/-- `dir_bit`: `Forward = 1`, `Reverse = 0` (R87), at the position of the direction bit, a parameter (00_scope.md
R11; bit 0 at the reference values, PRESUMED, unsafe: notes/assumptions/1). -/
def dirBit (c : ChipConst) : Direction → Byte
  | .reverse => 0#8
  | .forward => 1#8 <<< c.dirBitPos

/-- The direction an opcode byte carries (R87). -/
def dirOfByte (c : ChipConst) (b : Byte) : Direction :=
  if b.getLsbD c.dirBitPos then .forward else .reverse

/-- The mask of the commands that carry a direction: every bit but the direction bit (R83; `0xFE` at the reference
values). -/
def dirMask (c : ChipConst) : Byte := ~~~dirBit c .forward

/-- The address of a register, in bits 4..0 of a byte (R86). -/
def addrByte (c : ChipConst) (r : Reg) : Byte :=
  (c.regs.get r).addr.setWidth 8

/-- The opcode byte of a command, its variable bits filled (R83, R86, R87). -/
def commandByte (c : ChipConst) : Command → Byte
  | .setParam r => c.opcSetParam ||| addrByte c r
  | .getParam r => c.opcGetParam ||| addrByte c r
  | .run d => c.opcRun ||| dirBit c d
  | .move d => c.opcMove ||| dirBit c d
  | .goTo => c.opcGoTo
  | .goToDir d => c.opcGoToDir ||| dirBit c d
  | .goHome => c.opcGoHome
  | .goMark => c.opcGoMark
  | .resetPosition => c.opcResetPosition
  | .resetDevice => c.opcResetDevice
  | .softStop => c.opcSoftStop
  | .hardStop => c.opcHardStop
  | .softHiz => c.opcSoftHiz
  | .hardHiz => c.opcHardHiz
  | .getStatus => c.opcGetStatus

/-- Why the decoder of a recorded transaction answers `invalid` (R92). -/
inductive DecodeError where
  /-- There is no slot 0. -/
  | empty
  /-- Slot 0 matches no row of the opcode map. -/
  | invalidOpcode (b : Byte)
  /-- Slot 0 is a SET_PARAM or GET_PARAM byte whose address is not one of the ten. -/
  | invalidAddress (b : Byte)
  /-- Fewer slots follow than the command has (R84). -/
  | truncated (b : Byte)
  /-- More slots follow than the command has (R84); the byte is the first surplus one. -/
  | overlong (b : Byte)
  deriving DecidableEq, Repr

/-- The register of an address, if it is one of the ten (R88). -/
def regOfAddr (c : ChipConst) (a : BitVec 5) : Option Reg :=
  Reg.all.find? fun r => (c.regs.get r).addr == a

/-- The commands whose mask is `0xFF` (R83). -/
def fullByteCommands : List Command :=
  [.goTo, .goHome, .goMark, .resetPosition, .resetDevice, .softStop, .hardStop, .softHiz,
   .hardHiz, .getStatus]

/-- The command an opcode byte selects: full-byte matches first, then the masks that leave out the
direction bit (`0xFE`), then the two `0xE0` masks (R93). -/
def commandOf (c : ChipConst) (b : Byte) : Except DecodeError Command :=
  match fullByteCommands.find? fun k => commandByte c k == b with
  | some k => .ok k
  | none =>
    if b &&& dirMask c = c.opcRun then .ok (.run (dirOfByte c b))
    else if b &&& dirMask c = c.opcMove then .ok (.move (dirOfByte c b))
    else if b &&& dirMask c = c.opcGoToDir then .ok (.goToDir (dirOfByte c b))
    else if b &&& 0xE0#8 = c.opcSetParam then
      match regOfAddr c (b.extractLsb' 0 5) with
      | some r => .ok (.setParam r)
      | none => .error (.invalidAddress b)
    else if b &&& 0xE0#8 = c.opcGetParam then
      match regOfAddr c (b.extractLsb' 0 5) with
      | some r => .ok (.getParam r)
      | none => .error (.invalidAddress b)
    else .error (.invalidOpcode b)

/-- Every opcode byte the codec can emit selects the command it was emitted for. -/
def ChipConst.unambiguous (c : ChipConst) : Bool :=
  Command.all.all fun k =>
    match commandOf c (commandByte c k) with
    | .ok k' => k' == k
    | .error _ => false

/-! ### Lengths and payloads -/

/-- The transaction format of a command (R80). -/
def Command.format : Command → Format
  | .setParam _ | .run _ | .move _ | .goTo | .goToDir _ => .fw
  | .getParam _ | .getStatus => .fr
  | .goHome | .goMark | .resetPosition | .resetDevice | .softStop | .hardStop | .softHiz
  | .hardHiz => .f0

/-- The width `W` of the field a command carries or returns (R83, R90). -/
def Command.width (c : ChipConst) : Command → Nat
  | .setParam r | .getParam r => c.width r
  | .run _ => c.width .speed
  | .move _ | .goTo | .goToDir _ => c.width .absolutePosition
  | .getStatus => 16
  | .goHome | .goMark | .resetPosition | .resetDevice | .softStop | .hardStop | .softHiz
  | .hardHiz => 0

/-- The number `n` of slots after slot 0 (R84). -/
def Command.slots (c : ChipConst) (k : Command) : Nat := nBytes (k.width c)

/-- The transmitted bytes of a command with its field (R80, R85, R94). -/
def encodeCommand (c : ChipConst) (k : Command) (v : Int) : List Byte :=
  commandByte c k ::
    match k.format with
    | .f0 => []
    | .fw => beBytes (k.slots c) (mask (k.width c) v)
    | .fr => List.replicate (k.slots c) c.dummy

/-! ### Instructions and commands -/

/-- The per-register form that writes `v` to `r` (30_encoding.md R102 (b)); a STEP_MODE value that is no step-mode
code stays the generic form. -/
def setterOf (r : Reg) (v : Int) : Instr :=
  match r with
  | .absolutePosition => .setAbsPos v
  | .mark => .setMark v
  | .speed => .setSpeed v
  | .acceleration => .setAcc v
  | .deceleration => .setDec v
  | .maximumSpeed => .setMaxSpeed v
  | .minimumSpeed => .setMinSpeed v
  | .fullStepSpeed => .setFsSpd v
  | .stepMode => if 0 ≤ v ∧ v < 8 then .setStepMode (decodeStepMode v.toNat) else .setParam .stepMode v
  | .status => .setStatus v

/-- The per-register form that reads `r` (R102 (b)). -/
def getterOf : Reg → Instr
  | .absolutePosition => .getAbsPos
  | .mark => .getMark
  | .speed => .getSpeed
  | .acceleration => .getAcc
  | .deceleration => .getDec
  | .maximumSpeed => .getMaxSpeed
  | .minimumSpeed => .getMinSpeed
  | .fullStepSpeed => .getFsSpd
  | .stepMode => .getStepMode
  | .status => .getStatusNc

/-- go-to(position[, direction]): the pseudo-operation of R102 (a). -/
def goToOperation (pos : Int) : Option Direction → Instr
  | none => .goTo pos
  | some d => .goToDir d pos

/-- The command an operation sends and the integer its field carries (0 where it carries none); `none` for an
operation that makes no transaction of its own (30_encoding.md, heading). -/
def Instr.call : Instr → Option (Command × Int)
  | .setParam r v => some (.setParam r, v)
  | .getParam r => some (.getParam r, 0)
  | .run d v => some (.run d, v)
  | .move d v => some (.move d, v)
  | .goTo v => some (.goTo, v)
  | .goToDir d v => some (.goToDir d, v)
  | .goHome => some (.goHome, 0)
  | .goMark => some (.goMark, 0)
  | .resetPosition => some (.resetPosition, 0)
  | .resetDevice => some (.resetDevice, 0)
  | .softStop => some (.softStop, 0)
  | .hardStop => some (.hardStop, 0)
  | .softHiz => some (.softHiz, 0)
  | .hardHiz => some (.hardHiz, 0)
  | .getStatus => some (.getStatus, 0)
  | .setAbsPos v => some (.setParam .absolutePosition, v)
  | .getAbsPos => some (.getParam .absolutePosition, 0)
  | .setMark v => some (.setParam .mark, v)
  | .getMark => some (.getParam .mark, 0)
  | .setSpeed v => some (.setParam .speed, v)
  | .getSpeed => some (.getParam .speed, 0)
  | .setAcc v => some (.setParam .acceleration, v)
  | .getAcc => some (.getParam .acceleration, 0)
  | .setDec v => some (.setParam .deceleration, v)
  | .getDec => some (.getParam .deceleration, 0)
  | .setMaxSpeed v => some (.setParam .maximumSpeed, v)
  | .getMaxSpeed => some (.getParam .maximumSpeed, 0)
  | .setMinSpeed v => some (.setParam .minimumSpeed, v)
  | .getMinSpeed => some (.getParam .minimumSpeed, 0)
  | .setFsSpd v => some (.setParam .fullStepSpeed, v)
  | .getFsSpd => some (.getParam .fullStepSpeed, 0)
  | .setStepMode d => some (.setParam .stepMode, (encodeStepMode d : Int))
  | .getStepMode => some (.getParam .stepMode, 0)
  | .setStatus v => some (.setParam .status, v)
  | .getStatusNc => some (.getParam .status, 0)
  | .edge _ _ => none
  | .pop => none
  | .handlerReturn => none
  | .registerHandler _ => none
  | .calculateSpeed _ => none
  | .parseSpeed _ => none
  | .calculateAcceleration _ => none
  | .parseAcceleration _ => none
  | .calculateDeceleration _ => none
  | .parseDeceleration _ => none
  | .calculateMaxSpeed _ => none
  | .parseMaxSpeed _ => none
  | .calculateMinSpeed _ => none
  | .parseMinSpeed _ => none
  | .calculateFsSpd _ => none
  | .parseFsSpd _ => none
  | .wait => none
  | .approachHome => none
  | .approachTarget _ => none

/-- The operation a command with the received field `raw` spells (R91, R93). -/
def Command.toInstr (c : ChipConst) (k : Command) (raw : Nat) : Instr :=
  match k with
  | .setParam r => setterOf r (regValue c r raw)
  | .getParam r => getterOf r
  | .run d => .run d (fieldValue false (c.width .speed) raw)
  | .move d => .move d (fieldValue false (c.width .absolutePosition) raw)
  | .goTo => .goTo (fieldValue true (c.width .absolutePosition) raw)
  | .goToDir d => .goToDir d (fieldValue true (c.width .absolutePosition) raw)
  | .goHome => .goHome
  | .goMark => .goMark
  | .resetPosition => .resetPosition
  | .resetDevice => .resetDevice
  | .softStop => .softStop
  | .hardStop => .hardStop
  | .softHiz => .softHiz
  | .hardHiz => .hardHiz
  | .getStatus => .getStatus

/-! ### Decoder and encoder -/

/-- The decoder of R93: slot 0 selects the row and so the length, the `n` slots after it carry the field, and what
follows is handed back. It accepts any bytes and refuses by name (DESIGN CHOICE, safe:
notes/assumptions/16). -/
def decode (c : ChipConst) : List Byte → Except DecodeError (Instr × List Byte)
  | [] => .error .empty
  | b :: rest =>
    match commandOf c b with
    | .error e => .error e
    | .ok k =>
      if rest.length < k.slots c then .error (.truncated b)
      else .ok (k.toInstr c (beValue (rest.take (k.slots c))), rest.drop (k.slots c))

/-- The decoder on one whole transaction: nothing may follow it. -/
def decodeFrame (c : ChipConst) (bs : List Byte) : Except DecodeError Instr :=
  match decode c bs with
  | .error e => .error e
  | .ok (i, []) => .ok i
  | .ok (_, b :: _) => .error (.overlong b)

/-- The transmitted bytes of an operation, or `none` for one without a transaction of its own. -/
def encode (c : ChipConst) (i : Instr) : Option (List Byte) :=
  match i.call with
  | some (k, v) => some (encodeCommand c k v)
  | none => none

/-- The form in which the decoder answers an operation: the per-register forms stand for the generic set and get
(R102 (b)). -/
def Instr.canon : Instr → Instr
  | .setParam r v => setterOf r v
  | .getParam r => getterOf r
  | i => i

/-! ### The words of spec/opcode_table.json -/

/-- (DESIGN CHOICE, safe: notes/assumptions/8.) The bytes of an instruction numbered as the opcode table numbers it: byte `k` is bits `8k+7..8k`, every bit at
or above `nbits` is 0, and the longest transaction (30_encoding.md R93) has five bytes. -/
def tableBytes (nbits w : Nat) : List Byte :=
  [BitVec.ofNat 8 (w % 2 ^ nbits), BitVec.ofNat 8 (w % 2 ^ nbits / 2 ^ 8),
   BitVec.ofNat 8 (w % 2 ^ nbits / 2 ^ 16), BitVec.ofNat 8 (w % 2 ^ nbits / 2 ^ 24),
   BitVec.ofNat 8 (w % 2 ^ nbits / 2 ^ 32)]

/-- The number of bytes of the transaction that begins with these bytes (R93); 1 if slot 0 is invalid. -/
def frameLength (c : ChipConst) (bs : List Byte) : Nat :=
  match bs with
  | [] => 0
  | b :: _ =>
    match commandOf c b with
    | .ok k => 1 + k.slots c
    | .error _ => 1

/-- The bytes of a table word that belong to its transaction. -/
def tableFrame (c : ChipConst) (nbits w : Nat) : List Byte :=
  (tableBytes nbits w).take (frameLength c (tableBytes nbits w))

/-- The instruction the decoder reads from a word of the opcode table, at the reference values. -/
def decodeTableWord (nbits w : Nat) : Option Instr :=
  match decodeFrame referenceChip (tableFrame referenceChip nbits w) with
  | .ok i => some i
  | .error _ => none

end Sys2Proof
end

