-- ==== Sys2Proof/Machine/Reference.lean ====
section
/-!
DEFINITION. The conversion constants of 42_unit_conversion.md R192 and the parameters of a machine built with every
reference value.
-/
namespace Sys2Proof.Machine

/-- The six rows of R192, with the exact `K_q` of the table (PRESUMED, unsafe: notes/assumptions/2). -/
def referenceConv : PerQuantity ConvConst where
  speed := ⟨1048576 / 15625, 0, 0, 1048575⟩
  acceleration := ⟨16777216 / 244140625, 0, 0, 4095⟩
  deceleration := ⟨16777216 / 244140625, 0, 0, 4095⟩
  maximumSpeed := ⟨1024 / 15625, 0, 0, 1023⟩
  minimumSpeed := ⟨65536 / 15625, 0, 0, 4095⟩
  fullStepSpeed := ⟨1024 / 15625, 1 / 2, 0, 1023⟩

/-- `CAP = 16` (00_scope.md R10), `WAIT_CLEARING = false` (the default of 92_eei_decisions.md D26), and the
reference chip and conversion constants (DESIGN CHOICE, unsafe: notes/assumptions/3). -/
def referenceParams : Params where
  cap := 16
  waitClearing := false
  chip := referenceChip
  conv := referenceConv

end Sys2Proof.Machine
end

