-- ==== Sys2Proof/Machine/State.lean ====
section
/-!
DEFINITION. The state of the block (10_state.md R20 to R38), the environment it is joined to, what it returns and
emits, the reasons a step can stop, and the state after reset (R37).
-/
namespace Sys2Proof.Machine

/-- The Dispatcher state (R27). -/
inductive Disp where
  | ready
  | inHandler (e : Event)
  deriving DecidableEq, Repr, Inhabited

/-- The five states of a motion-engine instance (43_motion_engine.md R220). -/
inductive EngineState where
  | idle
  | seeking
  | waiting
  | done
  | aborted
  deriving DecidableEq, Repr, Inhabited

/-- The call that created an instance (10_state.md R29). -/
inductive EngineKind where
  | wait
  | approachHome
  | approachTarget (pos : Int)
  deriving DecidableEq, Repr, Inhabited

/-- A live motion-engine instance (R29); `stopSeen` is the spec's ghost bit (43_motion_engine.md R228). -/
structure Instance where
  caller : Context
  state : EngineState
  kind : EngineKind
  stopSeen : Bool
  deriving DecidableEq, Repr, Inhabited

/-- The decoded status (10_state.md R30, 30_encoding.md R95, R96): `faults` holds at bit `k` the decoded flag
`fault_k` of a latched bit `k`, and 0 elsewhere. -/
structure Snapshot where
  hiz : Bool
  busy : Bool
  direction : Direction
  faults : BitVec 16
  swClosed : Bool
  motStatus : BitVec 2
  sckMod : Bool
  deriving DecidableEq, Repr, Inhabited

/-- What an operation hands back to its caller (30_encoding.md R101). -/
inductive Value where
  | nothing
  | int (v : Int)
  | status (s : Snapshot)
  | stepMode (d : StepMode)
  | phys (q : Rat)
  deriving DecidableEq, Repr, Inhabited

/-- The last return of an operation: to whom, and what. -/
structure Return where
  caller : Context
  value : Value
  deriving DecidableEq, Repr, Inhabited

/-- One bus transaction (20_memory.md R52): who made it, the bytes sent and the bytes received, one per slot. -/
structure Transaction where
  by' : Context
  tx : List Byte
  rx : List Byte
  deriving DecidableEq, Repr, Inhabited

/-- One accepted transition (00_scope.md R18) and whether its push found room. -/
structure Accepted where
  event : Event
  pushed : Bool
  deriving DecidableEq, Repr, Inhabited

/-- The chip at the far end of the bus: the unconstrained oracle of 20_memory.md R66, or the reference chip of R67. -/
inductive Chip where
  | oracle
  | reference (r : RefChip)
  deriving DecidableEq, Repr, Inhabited

/-- The state. `lvl`, `ch`, `disp` and `ms` are the block's own (R20); `params` and `handler` are fixed at
construction (R26, R35); `line` and `chip` are the environment's (R31, R34); `drops` is the spec's ghost (R33).
The other fields are the model's: the context whose step is under way, what the last operation returned, the bus
traffic and the handler calls the block has put out, the accepted transitions, and the environment's choices still
to come (steps, chip answers) with the counter that numbers its free ones. -/
structure State where
  params : Params
  lvl : PerButton Bool
  ch : List Event
  disp : Disp
  ms : List Instance
  handler : Option Nat
  line : PerButton Bool
  chip : Chip
  drops : Nat
  ctx : Context
  ret : Option Return
  bus : List Transaction
  delivered : List Event
  history : List Accepted
  script : List Action
  answers : List Byte
  tick : Nat
  deriving DecidableEq, Repr

/-- The block has no fault: "Nothing in the block has the treatment `fault` or `stuck`"
(93_implementation_defined.md, after U27; 60_exceptions.md R250; DEDUCED, safe: notes/assumptions/22). -/
inductive Fault where
  deriving DecidableEq, Repr

/-- Why a step is refused. -/
inductive Refusal where
  /-- An instruction without a meaning; raised by exec's refused arms only. Safe. -/
  | notModelled (mnemonic : String)
  /-- A codec operation, a helper or a registration called from interrupt context; raised by the context check of
  Ops.lean (60_exceptions.md R266: the model refuses a violation). Safe. -/
  | fromInterrupt
  /-- The Dispatcher task calls an operation outside a handler; raised by the same check (R266). Safe. -/
  | outsideHandler
  /-- An EDGE body outside interrupt context; raised by execEdge (R266). Safe. -/
  | notInterrupt
  /-- A Dispatcher step of another context; raised by execPop and execHandlerReturn (R266). Safe. -/
  | notDispatcher
  /-- A registration from the Dispatcher task; raised by execRegisterHandler (R266). Safe. -/
  | fromDispatcher
  /-- A second registration; raised by execRegisterHandler (40_edge_monitor.md R124: "a second call is refused").
  Safe. -/
  | secondRegistration
  /-- A fire or a POP before registration; raised by execEdge and execPop (R124, 70_reset_and_hazards.md R293).
  Safe. -/
  | notRegistered
  /-- Bytes that are no transaction of the block; raised by the frame action (30_encoding.md R92). Safe. -/
  | invalidFrame (e : DecodeError)
  deriving DecidableEq, Repr

/-- (DESIGN CHOICE, unsafe: notes/assumptions/5, 7; safe: 6.) The state after reset, which is the construction of the block (70_reset_and_hazards.md R290; values of
10_state.md R37). The lines read low, the chip is the oracle, and the environment has no choice laid down. -/
def State.reset : State where
  params := referenceParams
  lvl := ⟨false, false, false, false⟩
  ch := []
  disp := .ready
  ms := []
  handler := some 0
  line := ⟨false, false, false, false⟩
  chip := .oracle
  drops := 0
  ctx := .task 0
  ret := none
  bus := []
  delivered := []
  history := []
  script := []
  answers := []
  tick := 0

end Sys2Proof.Machine
end

