-- ==== Sys2Proof/Machine/Flags.lean ====
section
/-!
DEFINITION. The status flags: `decode_status` (30_encoding.md R96) and the named flags of the reference layout
(R95). The block has no condition codes of its own (10_state.md R30).
-/
namespace Sys2Proof.Machine

/-- The 16-bit status word, the first response byte the more significant (R95). -/
def statusOfBytes (b1 b0 : Byte) : BitVec 16 := b1 ++ b0

/-- The snapshot of a status word (R96). The three live fields after `faults` stand at the bits of the reference
layout (R95; PRESUMED, unsafe: notes/assumptions/17). -/
def snapshotOf (l : StatusLayout) (w : BitVec 16) : Snapshot where
  hiz := w.getLsbD l.hizBit
  busy := w.getLsbD l.busyBit ^^ l.activeLow.getLsbD l.busyBit
  direction := if w.getLsbD l.dirBit then .forward else .reverse
  faults := (w ^^^ l.activeLow) &&& l.latched
  swClosed := w.getLsbD 2
  motStatus := w.extractLsb' 5 2
  sckMod := w.getLsbD 15

/-- `decode_status(b1, b0)` (R96): total, and the same for both status reads. -/
def decodeStatus (l : StatusLayout) (b1 b0 : Byte) : Snapshot :=
  snapshotOf l (statusOfBytes b1 b0)

/-- The decoded flag `fault_k` of bit `k` (R96). -/
def Snapshot.fault (s : Snapshot) (k : Nat) : Bool := s.faults.getLsbD k

/-- SW_EVN, bit 3 of the reference layout (R95). -/
def Snapshot.swEvent (s : Snapshot) : Bool := s.fault 3

/-- NOTPERF_CMD, bit 7 (R95). -/
def Snapshot.notperfCmd (s : Snapshot) : Bool := s.fault 7

/-- WRONG_CMD, bit 8 (R95). -/
def Snapshot.wrongCmd (s : Snapshot) : Bool := s.fault 8

/-- UVLO, bit 9 (R95). -/
def Snapshot.uvlo (s : Snapshot) : Bool := s.fault 9

/-- TH_WRN, bit 10 (R95). -/
def Snapshot.thWarning (s : Snapshot) : Bool := s.fault 10

/-- TH_SD, bit 11 (R95). -/
def Snapshot.thShutdown (s : Snapshot) : Bool := s.fault 11

/-- OCD, bit 12 (R95). -/
def Snapshot.overcurrent (s : Snapshot) : Bool := s.fault 12

/-- STEP_LOSS_A, bit 13 (R95). -/
def Snapshot.stepLossA (s : Snapshot) : Bool := s.fault 13

/-- STEP_LOSS_B, bit 14 (R95). -/
def Snapshot.stepLossB (s : Snapshot) : Bool := s.fault 14

/-- The raw word in which every latched bit is inactive: 0 for an active-high bit, 1 for an active-low one (R97). -/
def inactiveLatch (l : StatusLayout) : BitVec 16 := l.activeLow &&& l.latched

end Sys2Proof.Machine
end

