-- ==== Sys2Proof/Machine/Operands.lean ====
section
/-!
DEFINITION. The operand forms of the codec: a direction or a register address inside the opcode byte (30_encoding.md
R86, R87), the class of a command (00_scope.md R18), and the value a response stands for (41_command_codec.md R141,
R162).
-/
namespace Sys2Proof.Machine

/-- `OPC_<cmd> | dir` (R87). -/
def withDir (c : ChipConst) (op : Byte) (d : Direction) : Byte := op ||| dirBit c d

/-- `OPC_<cmd> | a` (R86). -/
def withAddr (op : Byte) (a : BitVec 5) : Byte := op ||| a.setWidth 8

/-- The `n` response bytes of a transaction: slots `1..n` (20_memory.md R56). -/
def responseBytes (n : Nat) (rs : List Byte) : List Byte := (rs.drop 1).take n

/-- The byte received in slot `k`; a transaction has one for each slot (20_memory.md R52). -/
def slotByte (rs : List Byte) (k : Nat) : Byte := rs.getD k 0

/-- The motion commands (00_scope.md R18). -/
def isMotion : Command → Bool
  | .run _ | .move _ | .goTo | .goToDir _ | .goHome | .goMark => true
  | .setParam _ | .getParam _ | .resetPosition | .resetDevice | .softStop | .hardStop | .softHiz
  | .hardHiz | .getStatus => false

/-- The stop-class commands (00_scope.md R18). -/
def isStop : Command → Bool
  | .softStop | .hardStop | .softHiz | .hardHiz => true
  | .setParam _ | .getParam _ | .run _ | .move _ | .goTo | .goToDir _ | .goHome | .goMark
  | .resetPosition | .resetDevice | .getStatus => false

end Sys2Proof.Machine
end

