-- ==== Sys2Proof/Machine/Chip.lean ====
section
/-!
DEFINITION. The reference chip of 20_memory.md R67: its register file, its status word, how it answers a transaction
and what a transaction does to it. It stands in for the oracle of R66 where a state says so.
-/
namespace Sys2Proof.Machine

/-- Every register of the file holds a `W`-bit value (R67: "one `W_a`-bit value per register"). -/
def regFileWf (c : ChipConst) (f : PerReg Nat) : Bool :=
  Reg.all.all fun r => decide (f.get r < 2 ^ c.width r)

/-- The chip keeps only as many bits of a value as the register has (R62). -/
def writeReg (c : ChipConst) (f : PerReg Nat) (r : Reg) (v : Nat) : PerReg Nat :=
  f.set r (mask (c.width r) v)

/-- A register file cut to the register widths. -/
def fitRegs (c : ChipConst) (f : PerReg Nat) : PerReg Nat where
  absolutePosition := mask (c.width .absolutePosition) f.absolutePosition
  mark := mask (c.width .mark) f.mark
  speed := mask (c.width .speed) f.speed
  acceleration := mask (c.width .acceleration) f.acceleration
  deceleration := mask (c.width .deceleration) f.deceleration
  maximumSpeed := mask (c.width .maximumSpeed) f.maximumSpeed
  minimumSpeed := mask (c.width .minimumSpeed) f.minimumSpeed
  fullStepSpeed := mask (c.width .fullStepSpeed) f.fullStepSpeed
  stepMode := mask (c.width .stepMode) f.stepMode
  status := mask (c.width .status) f.status

/-- A chip state with its registers cut to their widths. -/
def fitChip (c : ChipConst) (r : RefChip) : RefChip :=
  { r with regs := fitRegs c r.regs }

/-- LATCH after events inside the chip: a bit is active if it was or if `new` has it active. Events only set latched
bits; they are "cleared only by an explicit clearing read" (10_state.md R33 (a), 30_encoding.md R97). -/
def raiseLatch (l : StatusLayout) (old new : BitVec 16) : BitVec 16 :=
  ((old ^^^ inactiveLatch l) ||| (new ^^^ inactiveLatch l)) ^^^ inactiveLatch l

/-- The one-bit mask of a status bit. -/
def statusBit (k : Nat) : BitVec 16 := 1#16 <<< k

/-- The status word, "assembled from `MOVING`, the live fields and `LATCH`" (R67); the raw BUSY bit is `MOVING` with
the polarity of the layout (30_encoding.md R95). -/
def refStatus (l : StatusLayout) (r : RefChip) : BitVec 16 :=
  (r.latch &&& l.latched) ||| (r.live &&& ~~~(l.latched ||| statusBit l.busyBit)) |||
    (if r.moving ^^ l.activeLow.getLsbD l.busyBit then statusBit l.busyBit else 0#16)

/-- What GET_PARAM finds in a register: the assembled word for STATUS, the stored value otherwise (R67). -/
def refRead (c : ChipConst) (r : RefChip) (reg : Reg) : Nat :=
  match reg with
  | .status => (refStatus c.layout r).toNat
  | .absolutePosition | .mark | .speed | .acceleration | .deceleration | .maximumSpeed
  | .minimumSpeed | .fullStepSpeed | .stepMode => r.regs.get reg

/-- The response bytes of a command: slots `1..n` of a read, none otherwise. -/
def refResponse (c : ChipConst) (r : RefChip) (k : Command) : List Byte :=
  match k with
  | .getParam reg => beBytes (k.slots c) (refRead c r reg)
  | .getStatus => beBytes 2 (refStatus c.layout r).toNat
  | .setParam _ | .run _ | .move _ | .goTo | .goToDir _ | .goHome | .goMark | .resetPosition
  | .resetDevice | .softStop | .hardStop | .softHiz | .hardHiz => []

/-- What a command does to the reference chip (R67); `raw` is the field it carries and `free` what RESET_DEVICE
leaves. The high-impedance commands also raise the live HiZ bit (41_command_codec.md R152; DESIGN CHOICE,
unsafe: notes/assumptions/15). -/
def refReact (c : ChipConst) (free : RefChip) (k : Command) (raw : Nat) (r : RefChip) : RefChip :=
  match k with
  | .setParam reg => { r with regs := writeReg c r.regs reg raw }
  | .getParam _ => r
  | .run _ | .move _ | .goTo | .goToDir _ | .goHome | .goMark => { r with moving := true }
  | .softStop | .hardStop => { r with moving := false }
  | .softHiz | .hardHiz => { r with moving := false, live := r.live ||| statusBit c.layout.hizBit }
  | .resetPosition => { r with regs := r.regs.set .absolutePosition 0 }
  | .resetDevice => fitChip c free
  | .getStatus => { r with latch := inactiveLatch c.layout }

/-- The bytes the reference chip sends in a transaction: `spare` where what it sends is discarded (slot 0 and the
payload slots), its response in the last slots; one byte per slot (20_memory.md R52). -/
def refBytes (spare response : List Byte) : List Byte :=
  (spare.take (spare.length - response.length) ++ response).take spare.length

/-- The bytes the chip sends in a transaction `ts`, where `spare` is as long as `ts` and holds the free bytes. -/
def chipAnswers (c : ChipConst) (chip : Chip) (spare ts : List Byte) : List Byte :=
  match chip with
  | .oracle => spare
  | .reference r =>
    match ts with
    | [] => spare
    | op :: _ =>
      match commandOf c op with
      | .error _ => spare
      | .ok k => refBytes spare (refResponse c r k)

/-- The chip after a transaction `ts`. The oracle has no state (R66); a transaction that is no command of the block
leaves the reference chip alone. -/
def chipAfter (c : ChipConst) (free : RefChip) (chip : Chip) (ts : List Byte) : Chip :=
  match chip with
  | .oracle => .oracle
  | .reference r =>
    match ts with
    | [] => .reference r
    | op :: payload =>
      match commandOf c op with
      | .error _ => .reference r
      | .ok k => .reference (refReact c free k (beValue payload) r)

end Sys2Proof.Machine
end

