-- ==== Sys2Proof/Machine/Ops.lean ====
section
/-!
DEFINITION. The named operations every meaning is built from: who may call and who waits (60_exceptions.md R264 to
R266), returning a value, the atomic transaction and the emit procedures (20_memory.md R52 to R57, 41_command_codec.md
R141), the Event Channel (40_edge_monitor.md R116 to R121), and the motion-engine instances (43_motion_engine.md
R222). The block takes no exception (60_exceptions.md R250), and an interrupt entry saves and changes nothing
(R260, R261), so there is no operation for either.
-/
namespace Sys2Proof.Machine

/-! ### Contexts -/

/-- A caller is suspended while an instance it created lives (10_state.md R29). -/
def suspended (s : State) (c : Context) : Bool := s.ms.any fun m => m.caller == c

/-- Whether the present context may call an operation of the driver: it runs, it has to wait, or the call is a
violation that the model refuses (60_exceptions.md R266). -/
inductive Gate where
  | run
  | blocked
  | forbidden (r : Refusal)
  deriving DecidableEq, Repr

/-- The rows "codec operations" and "wait, approach_home, approach_target" of R266: never in interrupt context, in
the Dispatcher task from the handler only, in other tasks always; a suspended caller makes no call (DESIGN CHOICE,
safe: notes/assumptions/11, 12). -/
def callGate (s : State) : Gate :=
  match s.ctx with
  | .interrupt => .forbidden .fromInterrupt
  | .dispatcher =>
    match s.disp with
    | .ready => .forbidden .outsideHandler
    | .inHandler _ => if suspended s .dispatcher then .blocked else .run
  | .task n => if suspended s (.task n) then .blocked else .run

/-- Hand a value back to the context whose step is under way. -/
def returnValue (v : Value) (s : State) : State := { s with ret := some ⟨s.ctx, v⟩ }

/-- A call behind the gate. A blocked caller makes no step: nothing changes. -/
def gated (k : State → State) (s : State) : Host.Outcome State Fault Refusal :=
  match callGate s with
  | .run => .next (k s)
  | .blocked => .next s
  | .forbidden r => .refused r

/-- A pure function of any context (70_reset_and_hazards.md R297: "nothing is forbidden"): it reads and writes no state
of the machine (00_scope.md R16) and hands its value back. -/
def pureCall (v : Value) (s : State) : Host.Outcome State Fault Refusal :=
  .next (returnValue v s)

/-- `yield(POLL_INTERVAL)`: "no state change in the block" (00_scope.md R15; DESIGN CHOICE, safe:
notes/assumptions/18). -/
def yieldFor (_interval : Nat) (s : State) : State := s

/-! ### The bus -/

/-- The bytes the environment offers for the next `n` slots: those laid down in the state, free ones after them. -/
def spareBytes (n : Nat) (s : State) : List Byte :=
  (List.range n).map fun k => s.answers.getD k (Config.chipByte s.tick k)

/-- `Txn(ts) -> rs` (20_memory.md R52): atomic, one byte each way per slot; the chip sees the bytes and the traffic
records them (DEDUCED, unsafe without the bus lock: notes/assumptions/14). -/
def txn (ts : List Byte) (s : State) : List Byte × State :=
  let rs := chipAnswers s.params.chip s.chip (spareBytes ts.length s) ts
  (rs, { s with
    chip := chipAfter s.params.chip (Config.freeChip s.tick) s.chip ts
    bus := s.bus ++ [⟨s.ctx, ts, rs⟩]
    answers := s.answers.drop ts.length
    tick := s.tick + 1 })

/-- `emit_F0` (41_command_codec.md R141). -/
def emitF0 (op : Byte) (s : State) : State := (txn [op] s).2

/-- `emit_FW` (R141): the field masked to its width, then split most significant byte first. -/
def emitFW (op : Byte) (w : Nat) (v : Int) (s : State) : State :=
  (txn (op :: beBytes (nBytes w) (mask w v)) s).2

/-- `emit_FR` (R141): the `W`-bit number in the response. -/
def emitFR (op : Byte) (w : Nat) (s : State) : Nat × State :=
  let r := txn (op :: List.replicate (nBytes w) s.params.chip.dummy) s
  (mask w (beValue (responseBytes (nBytes w) r.1)), r.2)

/-- `MemRead(a, n)` (20_memory.md R56). -/
def memRead (a : BitVec 5) (n : Nat) (s : State) : Nat × State :=
  let r := txn (withAddr s.params.chip.opcGetParam a :: List.replicate n s.params.chip.dummy) s
  (beValue (responseBytes n r.1), r.2)

/-- `MemWrite(a, n, v)` (20_memory.md R57). -/
def memWrite (a : BitVec 5) (n v : Nat) (s : State) : State :=
  (txn (withAddr s.params.chip.opcSetParam a :: beBytes n v) s).2

/-- `set_param(reg, v)` without the return: `MemWrite(A_reg, ceil(W_reg/8), mask_{W_reg}(v))`
(41_command_codec.md R160). -/
def writeParam (r : Reg) (v : Int) (s : State) : State :=
  memWrite (s.params.chip.regs.get r).addr (nBytes (s.params.chip.width r))
    (mask (s.params.chip.width r) v) s

/-- `get_param(reg)` without the return: the value that `MemRead` gives, masked and sign-extended (R162). -/
def readParam (r : Reg) (s : State) : Int × State :=
  let q := memRead (s.params.chip.regs.get r).addr (nBytes (s.params.chip.width r)) s
  (regValue s.params.chip r q.1, q.2)

/-- The two status reads send an opcode byte and two dummies and decode the two response bytes (R170, R171). -/
def readStatus (op : Byte) (s : State) : Snapshot × State :=
  let r := txn [op, s.params.chip.dummy, s.params.chip.dummy] s
  (decodeStatus s.params.chip.layout (slotByte r.1 1) (slotByte r.1 2), r.2)

/-- The clearing read (R170). -/
def readStatusClearing (s : State) : Snapshot × State := readStatus s.params.chip.opcGetStatus s

/-- The non-clearing read: GET_PARAM on the STATUS register (R171). -/
def readStatusNonClearing (s : State) : Snapshot × State :=
  readStatus (withAddr s.params.chip.opcGetParam (s.params.chip.regs.get .status).addr) s

/-! ### The Event Channel -/

/-- `sample(i)` (00_scope.md R15). -/
def sample (i : ButtonId) (s : State) : Bool := s.line.get i

/-- `LVL[i] <- v` (00_scope.md R15). -/
def setLevel (i : ButtonId) (v : Bool) (s : State) : State := { s with lvl := s.lvl.set i v }

/-- `push(e)` (40_edge_monitor.md R116): append if there is room, else discard; the ghosts record which. -/
def push (e : Event) (s : State) : State :=
  if s.ch.length < s.params.cap then
    { s with ch := s.ch ++ [e], history := s.history ++ [⟨e, true⟩] }
  else
    { s with drops := s.drops + 1, history := s.history ++ [⟨e, false⟩] }

/-- `deliver(i, l)` (R121): the call of the handler, an output of the block. -/
def deliver (e : Event) (s : State) : State := { s with delivered := s.delivered ++ [e] }

/-! ### Motion-engine instances -/

/-- The live instance of a caller. -/
def instanceOf (m : Context) (s : State) : Option Instance :=
  s.ms.find? fun x => x.caller == m

/-- `CREATE(kind, caller)` (43_motion_engine.md R222): the caller is the context whose step is under way. -/
def createInstance (k : EngineKind) (s : State) : State :=
  { s with ms := s.ms ++ [⟨s.ctx, .idle, k, false⟩] }

/-- `MS.state <- v` for the instance of a caller (00_scope.md R15). -/
def setEngineState (m : Context) (v : EngineState) (s : State) : State :=
  { s with ms := s.ms.map fun x => if x.caller = m then { x with state := v } else x }

/-- The instance of a caller is destroyed (R222, `RETURN`). -/
def destroyInstance (m : Context) (s : State) : State :=
  { s with ms := s.ms.filter fun x => x.caller != m }

/-- `MARK_STOP` on one instance (R222). -/
def markInstance (x : Instance) : Instance :=
  match x.state with
  | .seeking | .waiting => { x with stopSeen := true }
  | .idle | .done | .aborted => x

/-- `MARK_STOP` (R222): every instance in Seeking or Waiting remembers the stop. -/
def markStop (s : State) : State := { s with ms := s.ms.map markInstance }

/-- A stop-class command: its one-byte transaction, and the ghost step that goes with it (R222, R228; DEDUCED, safe:
notes/assumptions/21). -/
def emitStop (op : Byte) (s : State) : State := markStop (emitF0 op s)

end Sys2Proof.Machine
end

