-- ==== Sys2Proof/Machine/Commands.lean ====
section
/-!
DEFINITION. The motion, stop and reset operations of the Command Codec (41_command_codec.md R142 to R153): each is
one transaction, returns nothing and touches no state of the block (R140).
-/
namespace Sys2Proof.Machine

/-- `run(dir, rate)` (R142). -/
def execRun (d : Direction) (rate : Int) (s : State) : Host.Outcome State Fault Refusal :=
  gated (fun s => returnValue .nothing
    (emitFW (withDir s.params.chip s.params.chip.opcRun d) (s.params.chip.width .speed) rate s)) s

/-- `move(dir, count)` (R143). -/
def execMove (d : Direction) (count : Int) (s : State) : Host.Outcome State Fault Refusal :=
  gated (fun s => returnValue .nothing
    (emitFW (withDir s.params.chip s.params.chip.opcMove d) (s.params.chip.width .absolutePosition) count s)) s

/-- The transaction of `go_to(pos)` (R144), which `approach_target` makes too (43_motion_engine.md R226). -/
def sendGoTo (pos : Int) (s : State) : State :=
  emitFW s.params.chip.opcGoTo (s.params.chip.width .absolutePosition) pos s

/-- The transaction of `go_home()` (R146), which `approach_home` makes too (43_motion_engine.md R225). -/
def sendGoHome (s : State) : State := emitF0 s.params.chip.opcGoHome s

/-- `go_to(pos)` (R144). -/
def execGoTo (pos : Int) (s : State) : Host.Outcome State Fault Refusal :=
  gated (fun s => returnValue .nothing (sendGoTo pos s)) s

/-- `go_to_dir(dir, pos)` (R145). -/
def execGoToDir (d : Direction) (pos : Int) (s : State) : Host.Outcome State Fault Refusal :=
  gated (fun s => returnValue .nothing
    (emitFW (withDir s.params.chip s.params.chip.opcGoToDir d) (s.params.chip.width .absolutePosition) pos s)) s

/-- `go_home()` (R146). -/
def execGoHome (s : State) : Host.Outcome State Fault Refusal :=
  gated (fun s => returnValue .nothing (sendGoHome s)) s

/-- `go_mark()` (R147). -/
def execGoMark (s : State) : Host.Outcome State Fault Refusal :=
  gated (fun s => returnValue .nothing (emitF0 s.params.chip.opcGoMark s)) s

/-- `reset_position()` (R148). -/
def execResetPosition (s : State) : Host.Outcome State Fault Refusal :=
  gated (fun s => returnValue .nothing (emitF0 s.params.chip.opcResetPosition s)) s

/-- `reset_device()` (R149): no reset of the block (70_reset_and_hazards.md R291). -/
def execResetDevice (s : State) : Host.Outcome State Fault Refusal :=
  gated (fun s => returnValue .nothing (emitF0 s.params.chip.opcResetDevice s)) s

/-- `soft_stop()` (R150). -/
def execSoftStop (s : State) : Host.Outcome State Fault Refusal :=
  gated (fun s => returnValue .nothing (emitStop s.params.chip.opcSoftStop s)) s

/-- `hard_stop()` (R151). -/
def execHardStop (s : State) : Host.Outcome State Fault Refusal :=
  gated (fun s => returnValue .nothing (emitStop s.params.chip.opcHardStop s)) s

/-- `soft_hiz()` (R152). -/
def execSoftHiz (s : State) : Host.Outcome State Fault Refusal :=
  gated (fun s => returnValue .nothing (emitStop s.params.chip.opcSoftHiz s)) s

/-- `hard_hiz()` (R153). -/
def execHardHiz (s : State) : Host.Outcome State Fault Refusal :=
  gated (fun s => returnValue .nothing (emitStop s.params.chip.opcHardHiz s)) s

end Sys2Proof.Machine
end

