-- ==== Sys2Proof/Machine/Conversion.lean ====
section
/-!
DEFINITION. The Unit Conversion Layer (42_unit_conversion.md): `calculate_q` and `parse_q` in exact rational
arithmetic (R191), and the twelve functions. They make no transaction, touch no state of the block and are no steps of
the machine (00_scope.md R16): Machine/Schedule.lean says when a laid-down call of one is evaluated.
-/
namespace Sys2Proof.Machine

/-- `round_nearest(x) = floor(x + 1/2)` (R194; DEDUCED, safe: notes/assumptions/19). -/
def roundNearest (x : Rat) : Int := (x + 1 / 2).floor

/-- `sat(lo, hi, t)` (00_scope.md R15). -/
def sat (lo hi t : Int) : Int := if t < lo then lo else if hi < t then hi else t

/-- `calculate_q(v)` (R191). -/
def calculate (q : ConvConst) (v : Rat) : Int :=
  sat q.tmin q.tmax (roundNearest (v * q.k - q.off))

/-- `parse_q(t)` (R191). -/
def parse (q : ConvConst) (t : Int) : Rat := ((t : Rat) + q.off) / q.k

/-- `calculate_speed(v)` (R195). -/
def execCalculateSpeed (v : Rat) (s : State) : Host.Outcome State Fault Refusal :=
  pureCall (.int (calculate s.params.conv.speed v)) s

/-- `parse_speed(t)` (R196). -/
def execParseSpeed (t : Int) (s : State) : Host.Outcome State Fault Refusal :=
  pureCall (.phys (parse s.params.conv.speed t)) s

/-- `calculate_acceleration(v)` (R197). -/
def execCalculateAcceleration (v : Rat) (s : State) : Host.Outcome State Fault Refusal :=
  pureCall (.int (calculate s.params.conv.acceleration v)) s

/-- `parse_acceleration(t)` (R198). -/
def execParseAcceleration (t : Int) (s : State) : Host.Outcome State Fault Refusal :=
  pureCall (.phys (parse s.params.conv.acceleration t)) s

/-- `calculate_deceleration(v)` (R199). -/
def execCalculateDeceleration (v : Rat) (s : State) : Host.Outcome State Fault Refusal :=
  pureCall (.int (calculate s.params.conv.deceleration v)) s

/-- `parse_deceleration(t)` (R200). -/
def execParseDeceleration (t : Int) (s : State) : Host.Outcome State Fault Refusal :=
  pureCall (.phys (parse s.params.conv.deceleration t)) s

/-- `calculate_max_speed(v)` (R201). -/
def execCalculateMaxSpeed (v : Rat) (s : State) : Host.Outcome State Fault Refusal :=
  pureCall (.int (calculate s.params.conv.maximumSpeed v)) s

/-- `parse_max_speed(t)` (R202). -/
def execParseMaxSpeed (t : Int) (s : State) : Host.Outcome State Fault Refusal :=
  pureCall (.phys (parse s.params.conv.maximumSpeed t)) s

/-- `calculate_min_speed(v)` (R203). -/
def execCalculateMinSpeed (v : Rat) (s : State) : Host.Outcome State Fault Refusal :=
  pureCall (.int (calculate s.params.conv.minimumSpeed v)) s

/-- `parse_min_speed(t)` (R204). -/
def execParseMinSpeed (t : Int) (s : State) : Host.Outcome State Fault Refusal :=
  pureCall (.phys (parse s.params.conv.minimumSpeed t)) s

/-- `calculate_fs_spd(v)` (R205). -/
def execCalculateFsSpd (v : Rat) (s : State) : Host.Outcome State Fault Refusal :=
  pureCall (.int (calculate s.params.conv.fullStepSpeed v)) s

/-- `parse_fs_spd(t)` (R206). -/
def execParseFsSpd (t : Int) (s : State) : Host.Outcome State Fault Refusal :=
  pureCall (.phys (parse s.params.conv.fullStepSpeed t)) s

/-- The twelve functions, which are "not steps" (00_scope.md R16). -/
def isConversion : Instr → Bool
  | .calculateSpeed _ | .parseSpeed _ | .calculateAcceleration _ | .parseAcceleration _
  | .calculateDeceleration _ | .parseDeceleration _ | .calculateMaxSpeed _ | .parseMaxSpeed _
  | .calculateMinSpeed _ | .parseMinSpeed _ | .calculateFsSpd _ | .parseFsSpd _ => true
  | .setParam _ _ | .getParam _ | .run _ _ | .move _ _ | .goTo _ | .goToDir _ _ | .goHome | .goMark
  | .resetPosition | .resetDevice | .softStop | .hardStop | .softHiz | .hardHiz | .getStatus
  | .setAbsPos _ | .getAbsPos | .setMark _ | .getMark | .setSpeed _ | .getSpeed | .setAcc _ | .getAcc
  | .setDec _ | .getDec | .setMaxSpeed _ | .getMaxSpeed | .setMinSpeed _ | .getMinSpeed | .setFsSpd _
  | .getFsSpd | .setStepMode _ | .getStepMode | .setStatus _ | .getStatusNc | .edge _ _ | .pop
  | .handlerReturn | .registerHandler _ | .wait | .approachHome | .approachTarget _ => false

end Sys2Proof.Machine
end

