-- ==== Sys2Proof/Machine/Engine.lean ====
section
/-!
DEFINITION. The Motion State Machine (43_motion_engine.md): the three calls, which create an instance and suspend
their caller, and the steps of an instance, named by its caller (R222). A step that is not enabled changes nothing
(DESIGN CHOICE, safe: notes/assumptions/10).
-/
namespace Sys2Proof.Machine

/-- `wait()` (R223): `CREATE(Wait, caller)`. -/
def execWait (s : State) : Host.Outcome State Fault Refusal :=
  gated (createInstance .wait) s

/-- `approach_home()` (R225): `CREATE(ApproachHome, caller)`. -/
def execApproachHome (s : State) : Host.Outcome State Fault Refusal :=
  gated (createInstance .approachHome) s

/-- `approach_target(pos)` (R226): `CREATE(ApproachTarget(pos), caller)`. -/
def execApproachTarget (pos : Int) (s : State) : Host.Outcome State Fault Refusal :=
  gated (createInstance (.approachTarget pos)) s

/-- `SEEK(m)` (R222): enabled in Idle for a maneuver; the motion command goes out. -/
def seekStep (m : Context) (s : State) : State :=
  match instanceOf m s with
  | some ⟨_, .idle, .approachHome, _⟩ => sendGoHome (setEngineState m .seeking s)
  | some ⟨_, .idle, .approachTarget pos, _⟩ => sendGoTo pos (setEngineState m .seeking s)
  | some ⟨_, .idle, .wait, _⟩ => s
  | some ⟨_, .seeking, _, _⟩ => s
  | some ⟨_, .waiting, _, _⟩ => s
  | some ⟨_, .done, _, _⟩ => s
  | some ⟨_, .aborted, _, _⟩ => s
  | none => s

/-- `ENTER_WAIT(m)` (R222): enabled in Seeking, and in Idle for a bare wait. -/
def enterWaitStep (m : Context) (s : State) : State :=
  match instanceOf m s with
  | some ⟨_, .seeking, _, _⟩ => setEngineState m .waiting s
  | some ⟨_, .idle, .wait, _⟩ => setEngineState m .waiting s
  | some ⟨_, .idle, .approachHome, _⟩ => s
  | some ⟨_, .idle, .approachTarget _, _⟩ => s
  | some ⟨_, .waiting, _, _⟩ => s
  | some ⟨_, .done, _, _⟩ => s
  | some ⟨_, .aborted, _, _⟩ => s
  | none => s

/-- The status read of a poll: the form that `WAIT_CLEARING` selects (R233). -/
def pollRead (s : State) : Snapshot × State :=
  if s.params.waitClearing then readStatusClearing s else readStatusNonClearing s

/-- `POLL(m)` (R222, R223): one status read; while the decoded `busy` is true the instance stays in Waiting and the
task yields, else it ends in Aborted or Done by its ghost bit. No other field of the snapshot is looked at. -/
def pollStep (m : Context) (s : State) : State :=
  match instanceOf m s with
  | some ⟨_, .waiting, _, stopSeen⟩ =>
    if (pollRead s).1.busy then yieldFor Config.pollInterval (pollRead s).2
    else setEngineState m (if stopSeen then .aborted else .done) (pollRead s).2
  | some ⟨_, .idle, _, _⟩ => s
  | some ⟨_, .seeking, _, _⟩ => s
  | some ⟨_, .done, _, _⟩ => s
  | some ⟨_, .aborted, _, _⟩ => s
  | none => s

/-- `RETURN(m)` (R222): enabled in Done and Aborted; the instance is destroyed, the caller resumes, nothing is
returned to it. -/
def resumeStep (m : Context) (s : State) : State :=
  match instanceOf m s with
  | some ⟨_, .done, _, _⟩ => returnValue .nothing (destroyInstance m s)
  | some ⟨_, .aborted, _, _⟩ => returnValue .nothing (destroyInstance m s)
  | some ⟨_, .idle, _, _⟩ => s
  | some ⟨_, .seeking, _, _⟩ => s
  | some ⟨_, .waiting, _, _⟩ => s
  | none => s

end Sys2Proof.Machine
end

