-- ==== Sys2Proof/Machine/Events.lean ====
section
/-!
DEFINITION. The Edge Monitor, the Dispatcher and the registration of the handler (40_edge_monitor.md R112, R120,
R122, R124).
-/
namespace Sys2Proof.Machine

/-- `EDGE(i, s)` (R112): suppressed if the sampled level equals the stored one, else the latch is updated and then
the event is pushed. Interrupt context only (60_exceptions.md R266), and not before registration (R124;
DEDUCED, unsafe if the hardware nests fires of one line: notes/assumptions/20). -/
def execEdge (i : ButtonId) (l : Bool) (s : State) : Host.Outcome State Fault Refusal :=
  match s.ctx with
  | .dispatcher | .task _ => .refused .notInterrupt
  | .interrupt =>
    match s.handler with
    | none => .refused .notRegistered
    | some _ =>
      if l = s.lvl.get i then .next s
      else .next (push ⟨i, l⟩ (setLevel i l s))

/-- `POP` (R120): the head of the channel goes to the handler. With an empty channel, or inside a handler call, the
Dispatcher has no step to take: it is blocked and nothing changes (R119; DESIGN CHOICE, safe:
notes/assumptions/10). -/
def execPop (s : State) : Host.Outcome State Fault Refusal :=
  match s.ctx with
  | .interrupt | .task _ => .refused .notDispatcher
  | .dispatcher =>
    match s.handler with
    | none => .refused .notRegistered
    | some _ =>
      match s.disp, s.ch with
      | .ready, e :: rest => .next (deliver e { s with ch := rest, disp := .inHandler e })
      | .ready, [] => .next s
      | .inHandler _, _ => .next s

/-- `HANDLER_RETURN` (R122): enabled in a handler call whose steps are over, so not while the handler is suspended
in a helper (R121). Where it is not enabled nothing changes (DESIGN CHOICE, safe: notes/assumptions/9,
10). -/
def execHandlerReturn (s : State) : Host.Outcome State Fault Refusal :=
  match s.ctx with
  | .interrupt | .task _ => .refused .notDispatcher
  | .dispatcher =>
    match s.disp with
    | .ready => .next s
    | .inHandler _ => if suspended s .dispatcher then .next s else .next { s with disp := .ready }

/-- `register_handler(H)` (R124): the construction of the block, with the state of 10_state.md R37
(70_reset_and_hazards.md R290, R293). Once only, from a task of the application (60_exceptions.md R266; DESIGN CHOICE,
unsafe: notes/assumptions/13). The spec says nothing of a call by a task that a helper suspends: that it changes nothing
before the registration and is refused like any second call after it is the model's choice (DESIGN CHOICE, safe:
notes/assumptions/13). -/
def execRegisterHandler (h : Nat) (s : State) : Host.Outcome State Fault Refusal :=
  match s.ctx with
  | .interrupt => .refused .fromInterrupt
  | .dispatcher => .refused .fromDispatcher
  | .task n =>
    match s.handler with
    | some _ => .refused .secondRegistration
    | none =>
      if suspended s (.task n) then .next s
      else .next { s with
        lvl := ⟨false, false, false, false⟩
        ch := []
        disp := .ready
        handler := some h
        drops := 0
        delivered := []
        history := [] }

end Sys2Proof.Machine
end

