-- ==== Sys2Proof/Machine/Registers.lean ====
section
/-!
DEFINITION. Register write and read with the per-register forms (41_command_codec.md R160 to R169) and the two status
reads (R170, R171).
-/
namespace Sys2Proof.Machine

/-- The body of every register write: the transaction, then a return of nothing (R160). -/
def setRegister (r : Reg) (v : Int) (s : State) : State := returnValue .nothing (writeParam r v s)

/-- The body of every integer register read: the transaction, then a return of the value (R162). -/
def getRegister (r : Reg) (s : State) : State :=
  returnValue (.int (readParam r s).1) (readParam r s).2

/-- `set_param(reg, v)` (R160): any integer is accepted and truncated (R161). -/
def execSetParam (r : Reg) (v : Int) (s : State) : Host.Outcome State Fault Refusal :=
  gated (setRegister r v) s

/-- `get_param(reg)` (R162). -/
def execGetParam (r : Reg) (s : State) : Host.Outcome State Fault Refusal :=
  gated (getRegister r) s

/-- `set_abs_pos(v)` (R163). -/
def execSetAbsPos (v : Int) (s : State) : Host.Outcome State Fault Refusal :=
  gated (setRegister .absolutePosition v) s

/-- `get_abs_pos()` (R163). -/
def execGetAbsPos (s : State) : Host.Outcome State Fault Refusal :=
  gated (getRegister .absolutePosition) s

/-- `set_mark(v)` (R163). -/
def execSetMark (v : Int) (s : State) : Host.Outcome State Fault Refusal :=
  gated (setRegister .mark v) s

/-- `get_mark()` (R163). -/
def execGetMark (s : State) : Host.Outcome State Fault Refusal :=
  gated (getRegister .mark) s

/-- `set_speed(v)` (R164). -/
def execSetSpeed (v : Int) (s : State) : Host.Outcome State Fault Refusal :=
  gated (setRegister .speed v) s

/-- `get_speed()` (R164). -/
def execGetSpeed (s : State) : Host.Outcome State Fault Refusal :=
  gated (getRegister .speed) s

/-- `set_acc(v)` (R165). -/
def execSetAcc (v : Int) (s : State) : Host.Outcome State Fault Refusal :=
  gated (setRegister .acceleration v) s

/-- `get_acc()` (R165). -/
def execGetAcc (s : State) : Host.Outcome State Fault Refusal :=
  gated (getRegister .acceleration) s

/-- `set_dec(v)` (R165). -/
def execSetDec (v : Int) (s : State) : Host.Outcome State Fault Refusal :=
  gated (setRegister .deceleration v) s

/-- `get_dec()` (R165). -/
def execGetDec (s : State) : Host.Outcome State Fault Refusal :=
  gated (getRegister .deceleration) s

/-- `set_max_speed(v)` (R166). -/
def execSetMaxSpeed (v : Int) (s : State) : Host.Outcome State Fault Refusal :=
  gated (setRegister .maximumSpeed v) s

/-- `get_max_speed()` (R166). -/
def execGetMaxSpeed (s : State) : Host.Outcome State Fault Refusal :=
  gated (getRegister .maximumSpeed) s

/-- `set_min_speed(v)` (R166). -/
def execSetMinSpeed (v : Int) (s : State) : Host.Outcome State Fault Refusal :=
  gated (setRegister .minimumSpeed v) s

/-- `get_min_speed()` (R166). -/
def execGetMinSpeed (s : State) : Host.Outcome State Fault Refusal :=
  gated (getRegister .minimumSpeed) s

/-- `set_fs_spd(v)` (R166). -/
def execSetFsSpd (v : Int) (s : State) : Host.Outcome State Fault Refusal :=
  gated (setRegister .fullStepSpeed v) s

/-- `get_fs_spd()` (R166). -/
def execGetFsSpd (s : State) : Host.Outcome State Fault Refusal :=
  gated (getRegister .fullStepSpeed) s

/-- `set_step_mode(d)` (R168): the code in bits 2..0, the bits above written as 0. -/
def execSetStepMode (d : StepMode) (s : State) : Host.Outcome State Fault Refusal :=
  gated (setRegister .stepMode (encodeStepMode d)) s

/-- `get_step_mode()` (R167): one read and no write; the bits above bit 2 are ignored. -/
def execGetStepMode (s : State) : Host.Outcome State Fault Refusal :=
  gated (fun s => returnValue
    (.stepMode (decodeStepMode (mask (s.params.chip.width .stepMode) (readParam .stepMode s).1)))
    (readParam .stepMode s).2) s

/-- `set_param(STATUS, v)` (R169): sent like any other write. -/
def execSetStatus (v : Int) (s : State) : Host.Outcome State Fault Refusal :=
  gated (setRegister .status v) s

/-- `get_status()`, the clearing read (R170). -/
def execGetStatus (s : State) : Host.Outcome State Fault Refusal :=
  gated (fun s => returnValue (.status (readStatusClearing s).1) (readStatusClearing s).2) s

/-- `get_status_nc()`, the non-clearing read (R171). -/
def execGetStatusNc (s : State) : Host.Outcome State Fault Refusal :=
  gated (fun s => returnValue (.status (readStatusNonClearing s).1) (readStatusNonClearing s).2) s

end Sys2Proof.Machine
end

