-- ==== Sys2Proof/Machine/Dispatch.lean ====
section
/-!
DEFINITION. The dispatch: one arm per instruction, each a direct call of its meaning. The context that performs the
instruction is `s.ctx`.
-/
namespace Sys2Proof.Machine

def exec (i : Instr) (s : State) : Host.Outcome State Fault Refusal :=
  match i with
  | .setParam r v => Sys2Proof.Machine.execSetParam r v s
  | .getParam r => Sys2Proof.Machine.execGetParam r s
  | .run d v => Sys2Proof.Machine.execRun d v s
  | .move d v => Sys2Proof.Machine.execMove d v s
  | .goTo v => Sys2Proof.Machine.execGoTo v s
  | .goToDir d v => Sys2Proof.Machine.execGoToDir d v s
  | .goHome => Sys2Proof.Machine.execGoHome s
  | .goMark => Sys2Proof.Machine.execGoMark s
  | .resetPosition => Sys2Proof.Machine.execResetPosition s
  | .resetDevice => Sys2Proof.Machine.execResetDevice s
  | .softStop => Sys2Proof.Machine.execSoftStop s
  | .hardStop => Sys2Proof.Machine.execHardStop s
  | .softHiz => Sys2Proof.Machine.execSoftHiz s
  | .hardHiz => Sys2Proof.Machine.execHardHiz s
  | .getStatus => Sys2Proof.Machine.execGetStatus s
  | .setAbsPos v => Sys2Proof.Machine.execSetAbsPos v s
  | .getAbsPos => Sys2Proof.Machine.execGetAbsPos s
  | .setMark v => Sys2Proof.Machine.execSetMark v s
  | .getMark => Sys2Proof.Machine.execGetMark s
  | .setSpeed t => Sys2Proof.Machine.execSetSpeed t s
  | .getSpeed => Sys2Proof.Machine.execGetSpeed s
  | .setAcc t => Sys2Proof.Machine.execSetAcc t s
  | .getAcc => Sys2Proof.Machine.execGetAcc s
  | .setDec t => Sys2Proof.Machine.execSetDec t s
  | .getDec => Sys2Proof.Machine.execGetDec s
  | .setMaxSpeed t => Sys2Proof.Machine.execSetMaxSpeed t s
  | .getMaxSpeed => Sys2Proof.Machine.execGetMaxSpeed s
  | .setMinSpeed t => Sys2Proof.Machine.execSetMinSpeed t s
  | .getMinSpeed => Sys2Proof.Machine.execGetMinSpeed s
  | .setFsSpd t => Sys2Proof.Machine.execSetFsSpd t s
  | .getFsSpd => Sys2Proof.Machine.execGetFsSpd s
  | .setStepMode d => Sys2Proof.Machine.execSetStepMode d s
  | .getStepMode => Sys2Proof.Machine.execGetStepMode s
  | .setStatus v => Sys2Proof.Machine.execSetStatus v s
  | .getStatusNc => Sys2Proof.Machine.execGetStatusNc s
  | .edge b l => Sys2Proof.Machine.execEdge b l s
  | .pop => Sys2Proof.Machine.execPop s
  | .handlerReturn => Sys2Proof.Machine.execHandlerReturn s
  | .registerHandler h => Sys2Proof.Machine.execRegisterHandler h s
  | .calculateSpeed v => Sys2Proof.Machine.execCalculateSpeed v s
  | .parseSpeed t => Sys2Proof.Machine.execParseSpeed t s
  | .calculateAcceleration v => Sys2Proof.Machine.execCalculateAcceleration v s
  | .parseAcceleration t => Sys2Proof.Machine.execParseAcceleration t s
  | .calculateDeceleration v => Sys2Proof.Machine.execCalculateDeceleration v s
  | .parseDeceleration t => Sys2Proof.Machine.execParseDeceleration t s
  | .calculateMaxSpeed v => Sys2Proof.Machine.execCalculateMaxSpeed v s
  | .parseMaxSpeed t => Sys2Proof.Machine.execParseMaxSpeed t s
  | .calculateMinSpeed v => Sys2Proof.Machine.execCalculateMinSpeed v s
  | .parseMinSpeed t => Sys2Proof.Machine.execParseMinSpeed t s
  | .calculateFsSpd v => Sys2Proof.Machine.execCalculateFsSpd v s
  | .parseFsSpd t => Sys2Proof.Machine.execParseFsSpd t s
  | .wait => Sys2Proof.Machine.execWait s
  | .approachHome => Sys2Proof.Machine.execApproachHome s
  | .approachTarget v => Sys2Proof.Machine.execApproachTarget v s

end Sys2Proof.Machine
end

