-- ==== Sys2Proof/Machine/Schedule.lean ====
section
/-!
DEFINITION. Which step runs next and what it is (00_scope.md R16, 60_exceptions.md R270): the steps laid down in the
state come first, in order; where none is laid down the environment's free choice is taken. "Any enabled step of any
agent may be the next one" (R270): a choice that is not enabled changes nothing (DESIGN CHOICE, safe: notes/assumptions/4).
-/
namespace Sys2Proof.Machine

/-- The context whose step is under way. -/
def asContext (c : Context) (s : State) : State := { s with ctx := c }

/-- The conversion that an action calls, with its caller. -/
def conversionOf : Action → Option (Context × Instr)
  | .op c i => if isConversion i then some (c, i) else none
  | .frame _ _ | .fire _ | .seek _ | .enterWait _ | .poll _ | .resume _ | .setLine _ _
  | .motionComplete | .chipStep _ => none

/-- A context evaluates a conversion: its value is handed back, and nothing else happens. -/
def evaluate (c : Context) (i : Instr) (s : State) : State :=
  match exec i (asContext c s) with
  | .next t => { s with ret := t.ret }
  | .fault _ | .refused _ => s

/-- The conversions before the next step. They "are not steps" (00_scope.md R16), although a handler's body may hold them
(40_edge_monitor.md R121): those laid down before a step are evaluated on the way to it and take no step of their own
(DESIGN CHOICE, safe: notes/assumptions/23). -/
def evaluateConversions : List Action → State → State
  | [], s => { s with script := [] }
  | a :: rest, s =>
    match conversionOf a with
    | some (c, i) => evaluateConversions rest (evaluate c i s)
    | none => { s with script := a :: rest }

/-- The state in which the next step is chosen: no conversion comes first in its schedule. -/
def beforeStep (s : State) : State := evaluateConversions s.script s

/-- The step to run: the first one laid down, or a free one. -/
def nextAction (s : State) : Action :=
  match s.script with
  | a :: _ => a
  | [] => Config.freeAction s.tick

/-- The state once the choice is made: it is used up. -/
def afterChoice (s : State) : State :=
  match s.script with
  | _ :: rest => { s with script := rest }
  | [] => { s with tick := s.tick + 1 }

/-- The environment changes the level of a line (10_state.md R34). -/
def setLine (i : ButtonId) (l : Bool) (s : State) : State := { s with line := s.line.set i l }

/-- The environment step "motion complete" of the reference chip (20_memory.md R67); the oracle has no state. -/
def motionComplete (s : State) : State :=
  match s.chip with
  | .oracle => s
  | .reference r => { s with chip := .reference { r with moving := false } }

/-- Events inside the reference chip (20_memory.md R61, 10_state.md R33 (a)); the oracle has no state. R67 names no
such step: that one may change every register, live bit and `MOVING` at will, and may set any latched bit but clear
none, is the model's choice (DESIGN CHOICE, unsafe: notes/assumptions/15). -/
def chipStep (r : RefChip) (s : State) : State :=
  match s.chip with
  | .oracle => s
  | .reference old =>
    { s with chip := .reference { fitChip s.params.chip r with
        latch := raiseLatch s.params.chip.layout old.latch r.latch } }

/-- One step of one agent. A conversion is no step (00_scope.md R16), so a free choice of one is a choice that is not
enabled (notes/assumptions/4, 23). -/
def runAction (a : Action) (s : State) : Host.Outcome State Fault Refusal :=
  match a with
  | .op c i => if isConversion i then .next s else exec i (asContext c s)
  | .frame c bs =>
    match decodeFrame s.params.chip bs with
    | .ok i => exec i (asContext c s)
    | .error e => .refused (.invalidFrame e)
  | .fire i => exec (.edge i (sample i s)) (asContext .interrupt s)
  | .seek m => .next (seekStep m (asContext m s))
  | .enterWait m => .next (enterWaitStep m (asContext m s))
  | .poll m => .next (pollStep m (asContext m s))
  | .resume m => .next (resumeStep m (asContext m s))
  | .setLine i l => .next (setLine i l s)
  | .motionComplete => .next (motionComplete s)
  | .chipStep r => .next (chipStep r s)

/-- A task number that no live instance suspends. -/
def freshTask (s : State) : Nat :=
  s.ms.foldr (fun m n =>
    match m.caller with
    | .task k => max n (k + 1)
    | .interrupt => n
    | .dispatcher => n) 0

/-- The call that a word of the opcode table spells, made by a task that is not suspended, as the next step. -/
def callOfWord (s : State) (nbits w : Nat) : Action :=
  .frame (.task (freshTask s)) (tableFrame s.params.chip nbits w)

end Sys2Proof.Machine
end

