-- ==== Sys2Proof/Machine/Step.lean ====
section
/-!
DEFINITION. The step of the machine, and how a word of the opcode table becomes the next instruction.
-/
namespace Sys2Proof.Machine

/-- One step of the block, of an application task, or of the environment (00_scope.md R16), after the conversions laid
down before it. -/
def step (s : State) : Host.Outcome State Fault Refusal :=
  runAction (nextAction (beforeStep s)) (afterChoice (beforeStep s))

/-- The block fetches nothing (10_state.md R23): a call reaches it from the application. This puts the call that the
word spells before every step laid down. -/
def State.withFetchWord (s : State) (nbits w : Nat) : State :=
  { s with script := callOfWord s nbits w :: s.script }

end Sys2Proof.Machine
end

