-- ==== Sys2Proof/Safety.lean ====
section
/-!
DEFINITION. The terms claims are stated in: invariants of the state (10_state.md R38), quiescence
(70_reset_and_hazards.md R296), what a call needs to run (60_exceptions.md R266), and the named assumptions on the
chip (20_memory.md R66).
-/
namespace Sys2Proof.Machine

/-! ### The Event Channel and the level table -/

/-- The accepted transitions whose push found room, in order. -/
def pushedEvents (s : State) : List Event := (s.history.filter (·.pushed)).map (·.event)

/-- The number of accepted transitions whose push was discarded. -/
def droppedCount (h : List Accepted) : Nat := (h.filter fun a => !a.pushed).length

/-- The accepted transitions of one identity, as levels, in order. -/
def levelsOf (i : ButtonId) (h : List Accepted) : List Bool :=
  (h.filter fun a => a.event.id == i).map fun a => a.event.level

/-- The level of the last accepted transition of an identity, `false` if there was none. -/
def lastLevel (i : ButtonId) (h : List Accepted) : Bool := (levelsOf i h).getLastD false

/-- Each level differs from the one before it; the first differs from `b`. -/
def alternates (b : Bool) : List Bool → Bool
  | [] => true
  | x :: xs => (x == !b) && alternates x xs

/-- R38 (a): `len(CH) ≤ CAP`. -/
abbrev ChannelBounded (s : State) : Prop := s.ch.length ≤ s.params.cap

/-- 20_memory.md R68, 40_edge_monitor.md R118, R125: what entered the channel is what was delivered followed by what
the channel still holds, in order. -/
abbrev DeliveredInOrder (s : State) : Prop := pushedEvents s = s.delivered ++ s.ch

/-- 10_state.md R33 (d): `DROPS` counts the discarding pushes. -/
abbrev DropsCounted (s : State) : Prop := s.drops = droppedCount s.history

/-- R38 (b): the level table holds the level of the last accepted transition. -/
abbrev LevelTableCurrent (s : State) : Prop :=
  ∀ i : ButtonId, s.lvl.get i = lastLevel i s.history

/-- R38 (c): the accepted transitions of one identity alternate in level, starting with `true`. -/
abbrev TransitionsAlternate (s : State) : Prop :=
  ∀ i : ButtonId, alternates false (levelsOf i s.history) = true

/-- The event a handler call runs on is the last one delivered (10_state.md R27, 40_edge_monitor.md R120). -/
abbrev HandlerRunsOnLast (s : State) : Prop :=
  match s.disp with
  | .ready => True
  | .inHandler e => s.delivered.getLast? = some e

/-! ### The Motion State Machine -/

/-- What each state of an instance says of its ghost bit and its call (43_motion_engine.md R221, R222). -/
def instanceOk (x : Instance) : Bool :=
  match x.state with
  | .idle => !x.stopSeen
  | .seeking => x.kind != .wait
  | .waiting => true
  | .done => !x.stopSeen
  | .aborted => x.stopSeen

/-- Every live instance is in a state the transition table reaches. -/
abbrev InstancesOk (s : State) : Prop := ∀ x ∈ s.ms, instanceOk x = true

/-- No two live instances have one caller (a caller is suspended, 10_state.md R29), none was created in interrupt
context, and one created by the Dispatcher task belongs to a running handler (60_exceptions.md R266). -/
abbrev CallersOk (s : State) : Prop :=
  (s.ms.map (·.caller)).Nodup ∧
    (∀ x ∈ s.ms, x.caller ≠ .interrupt ∧ (x.caller = .dispatcher → s.disp ≠ .ready))

/-! ### The bus and the chip -/

/-- Every transaction exchanged one byte each way per slot, slot 0 included (20_memory.md R52). -/
abbrev BusWellFormed (s : State) : Prop :=
  ∀ t ∈ s.bus, t.tx ≠ [] ∧ t.rx.length = t.tx.length

/-- The registers of the reference chip hold values of their widths (20_memory.md R67). -/
def chipOk (c : ChipConst) : Chip → Bool
  | .oracle => true
  | .reference r => regFileWf c r.regs

/-- The chip of the state is well formed. -/
abbrev ChipWellFormed (s : State) : Prop := chipOk s.params.chip s.chip = true

/-! ### Construction -/

/-- Before registration the block holds nothing (70_reset_and_hazards.md R293). -/
abbrev EmptyBeforeRegistration (s : State) : Prop :=
  s.handler = none →
    s.lvl = ⟨false, false, false, false⟩ ∧ s.ch = [] ∧ s.disp = .ready ∧ s.drops = 0 ∧
      s.delivered = [] ∧ s.history = []

/-- Quiescence (R296): no event waits, no handler runs, no maneuver is live; a transaction is never in progress
between two steps, since it is atomic. -/
abbrev Quiescent (s : State) : Prop := s.ch = [] ∧ s.disp = .ready ∧ s.ms = []

/-! ### When a call runs -/

/-- The context whose step is under way may call a codec operation or a helper, and does run
(60_exceptions.md R266, 10_state.md R29). -/
abbrev MayCall (s : State) : Prop := callGate s = .run

/-- What a codec operation leaves alone: the level table, the channel, the Dispatcher, the registration, the lines,
the drop count, the parameters, the deliveries, the accepted transitions, the context and the steps laid down
(10_state.md R28, 41_command_codec.md R140). -/
abbrev SameBlock (s t : State) : Prop :=
  t.lvl = s.lvl ∧ t.ch = s.ch ∧ t.disp = s.disp ∧ t.handler = s.handler ∧ t.line = s.line ∧
    t.drops = s.drops ∧ t.params = s.params ∧ t.delivered = s.delivered ∧
    t.history = s.history ∧ t.ctx = s.ctx ∧ t.script = s.script

/-- What an operation without a bus transaction leaves alone outside the block: the chip, the traffic and the chip's
answers still to come. -/
abbrev SameOutside (s t : State) : Prop :=
  t.chip = s.chip ∧ t.bus = s.bus ∧ t.answers = s.answers ∧ t.tick = s.tick

/-- A context gives the bus exactly one transaction with these bytes sent (41_command_codec.md R140), and what the
chip does with it is the chip's: `chipAnswers` and `chipAfter` say it for both kinds of chip. -/
abbrev SendsOne (s t : State) (ts : List Byte) : Prop :=
  t.bus = s.bus ++ [⟨s.ctx, ts, (txn ts s).1⟩] ∧
    t.chip = chipAfter s.params.chip (Config.freeChip s.tick) s.chip ts ∧
    t.answers = s.answers.drop ts.length ∧ t.tick = s.tick + 1

/-! ### What a completed operation did -/

/-- The operation completes: one transaction with the bytes `ts`, nothing of the block touched, `v` handed back. -/
abbrev Completes (i : Instr) (s : State) (ts : List Byte) (v : Value) : Prop :=
  ∃ t, exec i s = .next t ∧ SendsOne s t ts ∧ SameBlock s t ∧ t.ms = s.ms ∧ t.ret = some ⟨s.ctx, v⟩

/-- A stop-class operation completes: as above, and every instance in Seeking or Waiting has seen the stop
(43_motion_engine.md R222, `MARK_STOP`). -/
abbrev CompletesStop (i : Instr) (s : State) (op : Byte) : Prop :=
  ∃ t, exec i s = .next t ∧ SendsOne s t [op] ∧ SameBlock s t ∧
    t.ms = (s.ms.map fun x =>
      if x.state = .seeking ∨ x.state = .waiting then { x with stopSeen := true } else x) ∧
    t.ret = some ⟨s.ctx, .nothing⟩

/-- A pure function completes: the value is handed back and nothing else changes. -/
abbrev CompletesPure (i : Instr) (s : State) (v : Value) : Prop :=
  exec i s = .next { s with ret := some ⟨s.ctx, v⟩ }

/-- A blocking helper completes its call: an Idle instance of the caller is created (R222, `CREATE`) and nothing else
changes. -/
abbrev CompletesCreate (i : Instr) (s : State) (k : EngineKind) : Prop :=
  exec i s = .next { s with ms := s.ms ++ [⟨s.ctx, .idle, k, false⟩] }

/-- The bytes of a write of `v` to a register (41_command_codec.md R160). -/
def setParamBytes (c : ChipConst) (r : Reg) (v : Int) : List Byte :=
  (c.opcSetParam ||| (c.regs.get r).addr.setWidth 8) :: beBytes (nBytes (c.width r)) (mask (c.width r) v)

/-- The bytes of a read of a register (41_command_codec.md R162). -/
def getParamBytes (c : ChipConst) (r : Reg) : List Byte :=
  (c.opcGetParam ||| (c.regs.get r).addr.setWidth 8) :: List.replicate (nBytes (c.width r)) c.dummy

/-- What the chip sends in the slots of the transaction `ts` made now. -/
def chipSends (s : State) (ts : List Byte) : List Byte :=
  chipAnswers s.params.chip s.chip (spareBytes ts.length s) ts

/-- The number the response slots of a register read hold (20_memory.md R56). -/
def responseOf (s : State) (r : Reg) : Nat :=
  beValue (((chipSends s (getParamBytes s.params.chip r)).drop 1).take (nBytes (s.params.chip.width r)))

/-- The operation completes as a write of `v` to `r` (41_command_codec.md R160). -/
abbrev CompletesWrite (i : Instr) (s : State) (r : Reg) (v : Int) : Prop :=
  Completes i s (setParamBytes s.params.chip r v) .nothing

/-- The operation completes as a read of `r`: the response masked to the width, and sign-extended where the register
is signed (R162). -/
abbrev CompletesRead (i : Instr) (s : State) (r : Reg) : Prop :=
  Completes i s (getParamBytes s.params.chip r)
    (.int (if (s.params.chip.regs.get r).signed then
        sext (s.params.chip.width r) (responseOf s r % 2 ^ s.params.chip.width r)
      else ((responseOf s r % 2 ^ s.params.chip.width r : Nat) : Int)))

/-! ### Several steps in a row -/

/-- Go on from a next state. -/
def andThen (o : Host.Outcome State Fault Refusal) (k : State → Host.Outcome State Fault Refusal) :
    Host.Outcome State Fault Refusal :=
  match o with
  | .next s => k s
  | .fault r => .fault r
  | .refused r => .refused r

/-- Fires one after the other, each given by its line and its sampled level. -/
def fireAll : List Event → State → Host.Outcome State Fault Refusal
  | [], s => .next s
  | e :: es, s => andThen (exec (.edge e.id e.level) s) (fireAll es)

/-- `n` pairs of POP and HANDLER_RETURN. -/
def drain : Nat → State → Host.Outcome State Fault Refusal
  | 0, s => .next s
  | n + 1, s => andThen (exec .pop s) fun t => andThen (exec .handlerReturn t) (drain n)

/-- The fires that a level table accepts, in order (40_edge_monitor.md R112). -/
def acceptedOf (lvl : PerButton Bool) : List Event → List Event
  | [] => []
  | e :: es =>
    if e.level = lvl.get e.id then acceptedOf lvl es
    else e :: acceptedOf (lvl.set e.id e.level) es

/-- A sequence of levels without the repetitions, after the level `b` (debounce-by-equality, 00_scope.md R17). -/
def withoutRepeats (b : Bool) : List Bool → List Bool
  | [] => []
  | x :: xs => if x = b then withoutRepeats b xs else x :: withoutRepeats x xs

/-- `n` polls of one instance. -/
def polls (m : Context) : Nat → State → State
  | 0, s => s
  | n + 1, s => pollStep m (polls m n s)

/-- Whether the next poll reads `busy` (43_motion_engine.md R223). -/
def pollBusy (s : State) : Bool := (pollRead s).1.busy

/-- The state of the live instance of a caller. -/
def engineStateOf (m : Context) (s : State) : Option EngineState :=
  (instanceOf m s).map (·.state)

/-! ### Named assumptions on the chip (20_memory.md R66); none is a rule of the block -/

/-- The raw word of a status read, if the transaction is one (41_command_codec.md R170, R171). -/
def statusWordSeen (c : ChipConst) (t : Transaction) : Option (BitVec 16) :=
  match t.tx with
  | [op, _, _] =>
    if op = c.opcGetStatus ∨ op = withAddr c.opcGetParam (c.regs.get .status).addr then
      some (statusOfBytes (slotByte t.rx 1) (slotByte t.rx 2))
    else none
  | [] | [_] | [_, _] | _ :: _ :: _ :: _ :: _ => none

/-- The snapshot of a status read, if the transaction is one. -/
def statusSeen (c : ChipConst) (t : Transaction) : Option Snapshot :=
  (statusWordSeen c t).map (snapshotOf c.layout)

/-- The command a transaction carries. -/
def commandSeen (c : ChipConst) (t : Transaction) : Option Command :=
  match t.tx with
  | [] => none
  | op :: _ =>
    match commandOf c op with
    | .ok k => some k
    | .error _ => none

/-- `CHIP_BUSY_ENDS`: after a motion command, some later status read returns `busy = false`. -/
def ChipBusyEnds (c : ChipConst) (traffic : Nat → Transaction) : Prop :=
  ∀ n k, commandSeen c (traffic n) = some k → isMotion k = true →
    ∃ m, n < m ∧ ∃ v, statusSeen c (traffic m) = some v ∧ v.busy = false

/-- The transaction is a RESET_DEVICE, after which "every chip register is unspecified" (41_command_codec.md R149). That
it ends what CHIP_LATCH and CHIP_HOLDS promise is the model's choice (DESIGN CHOICE, safe: notes/assumptions/6). -/
def resetSeen (c : ChipConst) (t : Transaction) : Prop := commandSeen c t = some .resetDevice

/-- From transaction `m` to transaction `n` nothing happens inside the chip (`quiet j` says so of the time from
transaction `j` to the next) and the device is not reset. -/
def Undisturbed (c : ChipConst) (quiet : Nat → Prop) (traffic : Nat → Transaction) (m n : Nat) : Prop :=
  ∀ j, m ≤ j → j < n → quiet j ∧ ¬ resetSeen c (traffic j)

/-- R63: "latched (cleared only by an explicit clearing read)". A latched flag that a status read shows is shown by
every later one, as long as no clearing read, the showing one included, comes before it. -/
def ChipKeepsLatched (c : ChipConst) (traffic : Nat → Transaction) : Prop :=
  ∀ m n v w k, m < n → statusSeen c (traffic m) = some v → statusSeen c (traffic n) = some w →
    (∀ j, m ≤ j → j < n → commandSeen c (traffic j) ≠ some .getStatus ∧ ¬ resetSeen c (traffic j)) →
    v.fault k = true → w.fault k = true

/-- R63: a clearing read "resets" the latched bits. After it every status read of either form, the next clearing one
among them, shows every latched bit inactive, until something happens inside the chip. -/
def ChipClearsLatched (c : ChipConst) (quiet : Nat → Prop) (traffic : Nat → Transaction) : Prop :=
  ∀ m n w, m < n → commandSeen c (traffic m) = some .getStatus → Undisturbed c quiet traffic m n →
    statusWordSeen c (traffic n) = some w → w &&& c.layout.latched = inactiveLatch c.layout

/-- R63, 10_state.md R33 (a): the latched bits are "set by events inside the chip", so while nothing happens there no
status read shows a flag that an earlier one did not show. -/
def ChipSetsLatched (c : ChipConst) (quiet : Nat → Prop) (traffic : Nat → Transaction) : Prop :=
  ∀ m n v w k, m < n → Undisturbed c quiet traffic m n →
    statusSeen c (traffic m) = some v → statusSeen c (traffic n) = some w →
    v.fault k = false → w.fault k = false

/-- R63: two consecutive status reads of either form, two clearing ones among them, with nothing happening inside the
chip between them agree in every bit that is not latched. -/
def ChipLiveAgrees (c : ChipConst) (quiet : Nat → Prop) (traffic : Nat → Transaction) : Prop :=
  ∀ n v w, quiet n → statusWordSeen c (traffic n) = some v → statusWordSeen c (traffic (n + 1)) = some w →
    w &&& ~~~c.layout.latched = v &&& ~~~c.layout.latched

/-- `CHIP_LATCH` (R63): latched bits are set by events, kept until a clearing read and reset by it, and a read returns
the word as it stands. -/
def ChipLatch (c : ChipConst) (quiet : Nat → Prop) (traffic : Nat → Transaction) : Prop :=
  ChipKeepsLatched c traffic ∧ ChipClearsLatched c quiet traffic ∧
    ChipSetsLatched c quiet traffic ∧ ChipLiveAgrees c quiet traffic

/-- The transaction gives register `r` another value than a write of `r` left: another write of it, a RESET_DEVICE, or
for ABSOLUTE_POSITION a RESET_POSITION (41_command_codec.md R148, R149). R66 names none of the three but "the last value
written"; that the two resets end the promise is the model's choice (DESIGN CHOICE, safe: notes/assumptions/6). -/
def overwrites (c : ChipConst) (r : Reg) (t : Transaction) : Prop :=
  commandSeen c t = some (.setParam r) ∨ resetSeen c t ∨
    (r = .absolutePosition ∧ commandSeen c t = some .resetPosition)

/-- `CHIP_HOLDS` for one register that the chip does not change by itself: a read gives `mask_W` of the last value
written, if nothing overwrites it in between. -/
def ChipHolds (c : ChipConst) (r : Reg) (traffic : List Transaction) : Prop :=
  ∀ before between after w g, traffic = before ++ w :: (between ++ g :: after) →
    commandSeen c w = some (.setParam r) →
    (∀ t ∈ between, ¬ overwrites c r t) →
    commandSeen c g = some (.getParam r) →
      mask (c.width r) (beValue (responseBytes (nBytes (c.width r)) g.rx)) =
        mask (c.width r) (beValue (w.tx.drop 1))

end Sys2Proof.Machine
end

