-- ==== Sys2Proof/Certificates/Slice0/Obligations.lean ====
section
/-!
DEFINITION. The statements for the provers.
-/
open Sys2Proof Sys2Proof.Machine

/-! ### Encoding -/

/-- The reference values are parameters the spec admits (00_scope.md R11, R12), and no two of the opcode bytes the
codec can emit are equal (30_encoding.md R83). They are reference values, notes/assumptions/1 and 2; `wf` asks two
things beyond the spec, widths of at least 1 bit and three different status bits (DESIGN CHOICE, notes/assumptions/24). -/
def Obligations.ReferenceConstantsAreWellFormed : Prop :=
  referenceParams.wf = true ∧ referenceChip.unambiguous = true

/-- R93, R91: decoding the bytes an operation sends, whatever follows them, gives the operation back, for every operand
that fits its field and every unambiguous opcode map. R102 (b) makes the generic and the per-register form one
transaction and does not say which of them a trace decoder answers: that it answers the per-register form
(`Instr.canon`) is the model's own choice (DESIGN CHOICE, notes/assumptions/16), and so is the lower bound of 1 bit in
`widthsOk` (DESIGN CHOICE, notes/assumptions/24). -/
def Obligations.DecodeOfEncodeIsTheOperation : Prop :=
  ∀ (c : ChipConst) (i : Instr) (bs rest : List Byte),
    c.widthsOk = true → c.unambiguous = true → i.wf c = true → encode c i = some bs →
      decode c (bs ++ rest) = .ok (i.canon, rest)

/-- Words of 30_encoding.md R83, R89, R93 and 95_test_vectors.md V27, with the operations they stand for and the
refusals of bytes that are none, at the reference values (notes/assumptions/1). Those rules name only SET_PARAM and
GET_PARAM of a register for `03 3F FF FD` and `35 00 00`: that the decoder answers the per-register forms (`setMark`,
`getFsSpd`), and reads the field as the signed value -3, is the model's own choice (DESIGN CHOICE,
notes/assumptions/16). -/
def Obligations.WordsOfTheSpecDecode : Prop :=
  decodeFrame referenceChip [0x60, 0x01, 0x23, 0x45] = .ok (.goTo 0x12345) ∧
    decodeFrame referenceChip [0x51, 0x00, 0x68, 0xDC] = .ok (.run .forward 26844) ∧
    decodeFrame referenceChip [0x03, 0x3F, 0xFF, 0xFD] = .ok (.setMark (-3)) ∧
    decodeFrame referenceChip [0x35, 0x00, 0x00] = .ok .getFsSpd ∧
    decodeFrame referenceChip [0xB8] = .ok .hardStop ∧
    decodeFrame referenceChip [0xD0, 0x00, 0x00] = .ok .getStatus ∧
    decodeFrame referenceChip [0x00] = .error (.invalidAddress 0x00) ∧
    decodeFrame referenceChip [0x3A] = .error (.invalidAddress 0x3A) ∧
    decodeFrame referenceChip [0x61] = .error (.invalidOpcode 0x61)

/-- R92, R93: slot 0 selects a command only if it is the opcode byte of that command; no other byte falls through to
a neighbour (at the reference values, notes/assumptions/1). -/
def Obligations.NoForeignOpcodeByteIsAccepted : Prop :=
  ∀ (b : Byte) (k : Command), commandOf referenceChip b = .ok k → b = commandByte referenceChip k

/-- R84: a transaction has `1 + n` slots with `n = ceil(W/8)`, `0 ≤ n ≤ 4`. -/
def Obligations.TransactionHasOnePlusNSlots : Prop :=
  ∀ (c : ChipConst) (i : Instr) (k : Command) (v : Int) (bs : List Byte),
    (∀ r, c.width r ≤ 32) → i.call = some (k, v) → encode c i = some bs →
      bs.length = 1 + (k.width c + 7) / 8 ∧ (k.width c + 7) / 8 ≤ 4

/-- R99 and R100: the eight divisors are 1, 2, 4, ..., 128 and each is two to its code, a number below 8; decoding looks
at bits 2..0 only; an event word is the identity code (0 cw, 1 ccw, 2 stop, 3 home) in bits 2..1 and the level in
bit 0, and every word is that of one event. -/
def Obligations.StepModeCodesAndEventWords : Prop :=
  [StepMode.m1, .m2, .m4, .m8, .m16, .m32, .m64, .m128].map StepMode.divisor =
      [1, 2, 4, 8, 16, 32, 64, 128] ∧
    (∀ d : StepMode, encodeStepMode d < 8 ∧ d.divisor = 2 ^ encodeStepMode d ∧
      decodeStepMode (encodeStepMode d) = d) ∧
    (∀ r : Nat, (decodeStepMode r).divisor = 2 ^ (r % 8)) ∧
    (∀ e : Event, e.toWord.toNat =
      2 * (match e.id with | .cw => 0 | .ccw => 1 | .stop => 2 | .home => 3) +
        (if e.level then 1 else 0)) ∧
    (∀ e : Event, Event.ofWord e.toWord = e) ∧ (∀ w : BitVec 3, (Event.ofWord w).toWord = w)

/-- R161: every operation that sends a field of width `W` sends `v mod 2^W` after its opcode byte; (a) bits at `W` and
above are lost, (b) a negative value becomes `2^W + v`, and a value in the signed range is read back from its field by
a signed reading, (c) a value of the upper half is read back negative, (d) a value that fits goes out unchanged. -/
def Obligations.TruncationLaw : Prop :=
  (∀ (s : State) (i : Instr) (k : Command) (v : Int),
    MayCall s → i.call = some (k, v) → k.format = .fw →
      ∃ t rx, exec i s = .next t ∧ t.bus = s.bus ++ [⟨s.ctx, commandByte s.params.chip k ::
        beBytes ((k.width s.params.chip + 7) / 8)
          (v % ((2 ^ k.width s.params.chip : Nat) : Int)).toNat, rx⟩]) ∧
  ∀ (w : Nat) (v : Int),
    (mask w v : Int) = v % (2 ^ w : Nat) ∧
      (∀ k : Int, mask w (v + k * (2 ^ w : Nat)) = mask w v) ∧
      (-(2 ^ w : Nat) ≤ v → v < 0 → (mask w v : Int) = (2 ^ w : Nat) + v) ∧
      (0 ≤ v → v < (2 ^ w : Nat) → (mask w v : Int) = v) ∧
      (0 < w → -(2 ^ (w - 1) : Nat) ≤ v → v < (2 ^ (w - 1) : Nat) → sext w (mask w v) = v) ∧
      (0 < w → (2 ^ (w - 1) : Nat) ≤ v → v < (2 ^ w : Nat) → sext w (mask w v) = v - (2 ^ w : Nat))

/-- R53, R15: `n` bytes, most significant first, and joining them gives the number back modulo `256^n`. -/
def Obligations.BigEndianSplitAndJoin : Prop :=
  ∀ n v : Nat, (beBytes n v).length = n ∧ beValue (beBytes n v) = v % 256 ^ n ∧
    (∀ k, k < n → (beBytes n v).getD k 0 = BitVec.ofNat 8 (v / 256 ^ (n - 1 - k)))

/-- R162, R91: the padding bits of a response are ignored, an unsigned register never gives a negative value, and a
signed `W`-bit register gives a value in `-2^(W-1) .. 2^(W-1)-1`. -/
def Obligations.ReceivedValueIgnoresPadding : Prop :=
  ∀ (signed : Bool) (w raw : Nat), 0 < w →
    fieldValue signed w raw = fieldValue signed w (raw % 2 ^ w) ∧
      (signed = false → fieldValue signed w raw = (raw % 2 ^ w : Nat)) ∧
      (signed = true → -(2 ^ (w - 1) : Nat) ≤ fieldValue signed w raw ∧
        fieldValue signed w raw < (2 ^ (w - 1) : Nat))

/-! ### Who may call -/

/-- 60_exceptions.md R266 for codec operations and helpers: a call runs in a task that is not suspended, and in the
Dispatcher task only in a handler that is not suspended. -/
def Obligations.CallsRunInTaskContextOnly : Prop :=
  ∀ s : State, MayCall s ↔
    ((∃ n, s.ctx = .task n) ∨ (s.ctx = .dispatcher ∧ ∃ e, s.disp = .inHandler e)) ∧
      ∀ x ∈ s.ms, x.caller ≠ s.ctx

/-- 41_command_codec.md R172 with 60_exceptions.md R266: a codec operation or a helper is refused exactly where the
context may not call it, makes no step exactly while its caller is suspended (notes/assumptions/11, 12), and completes
everywhere else, whatever the operands and the chip. -/
def Obligations.OnlyTheContextRefusesACall : Prop :=
  ∀ (i : Instr) (s : State),
    (∃ k v, i.call = some (k, v)) ∨ i = .wait ∨ i = .approachHome ∨ (∃ p, i = .approachTarget p) →
      (s.ctx = .interrupt → exec i s = .refused .fromInterrupt) ∧
      (s.ctx = .dispatcher → s.disp = .ready → exec i s = .refused .outsideHandler) ∧
      (s.ctx ≠ .interrupt → (s.ctx = .dispatcher → s.disp ≠ .ready) →
        (∃ x ∈ s.ms, x.caller = s.ctx) → exec i s = .next s) ∧
      (MayCall s → ∃ t, exec i s = .next t)

/-- 60_exceptions.md R266: the body of a fire runs in interrupt context only, the Dispatcher's steps in the
Dispatcher task only, and a registration in a task of the application only. -/
def Obligations.WrongContextIsRefused : Prop :=
  ∀ (s : State) (b : ButtonId) (l : Bool) (h : Nat),
    (s.ctx ≠ .interrupt → exec (.edge b l) s = .refused .notInterrupt) ∧
      (s.ctx ≠ .dispatcher → exec .pop s = .refused .notDispatcher ∧
        exec .handlerReturn s = .refused .notDispatcher) ∧
      (s.ctx = .interrupt → exec (.registerHandler h) s = .refused .fromInterrupt) ∧
      (s.ctx = .dispatcher → exec (.registerHandler h) s = .refused .fromDispatcher)

/-! ### The Command Codec -/

/-- R146 to R149 (go_home, go_mark, reset_position, reset_device): one byte on the bus, nothing else in the block. -/
def Obligations.FieldlessCommandsComplete : Prop :=
  ∀ s : State, MayCall s →
    Completes .goHome s [s.params.chip.opcGoHome] .nothing ∧
      Completes .goMark s [s.params.chip.opcGoMark] .nothing ∧
      Completes .resetPosition s [s.params.chip.opcResetPosition] .nothing ∧
      Completes .resetDevice s [s.params.chip.opcResetDevice] .nothing

/-- R150 to R153 with 43_motion_engine.md R222 (MARK_STOP): one byte on the bus, and every instance in Seeking or
Waiting has seen the stop. -/
def Obligations.StopCommandsComplete : Prop :=
  ∀ s : State, MayCall s →
    CompletesStop .softStop s s.params.chip.opcSoftStop ∧
      CompletesStop .hardStop s s.params.chip.opcHardStop ∧
      CompletesStop .softHiz s s.params.chip.opcSoftHiz ∧
      CompletesStop .hardHiz s s.params.chip.opcHardHiz

/-- R142 to R145 (run, move, go_to, go_to_dir): the opcode byte with the direction at its position (00_scope.md R11; bit
0 at the reference values), then the field masked to its width and split most significant byte first. -/
def Obligations.MotionCommandsWithAFieldComplete : Prop :=
  ∀ (s : State) (d : Direction) (v : Int), MayCall s →
    Completes (.run d v) s
        ((s.params.chip.opcRun ||| if d = .forward then 1#8 <<< s.params.chip.dirBitPos else 0#8) ::
          beBytes (nBytes (s.params.chip.width .speed)) (mask (s.params.chip.width .speed) v))
        .nothing ∧
      Completes (.move d v) s
        ((s.params.chip.opcMove ||| if d = .forward then 1#8 <<< s.params.chip.dirBitPos else 0#8) ::
          beBytes (nBytes (s.params.chip.width .absolutePosition))
            (mask (s.params.chip.width .absolutePosition) v)) .nothing ∧
      Completes (.goTo v) s
        (s.params.chip.opcGoTo ::
          beBytes (nBytes (s.params.chip.width .absolutePosition))
            (mask (s.params.chip.width .absolutePosition) v)) .nothing ∧
      Completes (.goToDir d v) s
        ((s.params.chip.opcGoToDir ||| if d = .forward then 1#8 <<< s.params.chip.dirBitPos else 0#8) ::
          beBytes (nBytes (s.params.chip.width .absolutePosition))
            (mask (s.params.chip.width .absolutePosition) v)) .nothing

/-- R144: go_to is a motion command that sends opcode `0x60` and the position modulo `2^W_ABS_POS` in big-endian bytes,
and returns nothing; with a 22-bit position the three examples of the rule are its bytes. -/
def Obligations.GoToSendsTheDocumentsBytes : Prop :=
  isMotion .goTo = true ∧
    ∀ (s : State) (v : Int), MayCall s → s.params.chip.opcGoTo = 0x60#8 →
      Completes (.goTo v) s
        (0x60#8 :: beBytes ((s.params.chip.width .absolutePosition + 7) / 8)
          (v % ((2 ^ s.params.chip.width .absolutePosition : Nat) : Int)).toNat) .nothing ∧
      (s.params.chip.width .absolutePosition = 22 →
        Completes (.goTo 0x12345) s [0x60#8, 0x01#8, 0x23#8, 0x45#8] .nothing ∧
          Completes (.goTo (-1)) s [0x60#8, 0x3F#8, 0xFF#8, 0xFF#8] .nothing ∧
          Completes (.goTo 0x400000) s [0x60#8, 0x00#8, 0x00#8, 0x00#8] .nothing)

/-- R160: a register write sends `OPC_SET_PARAM | A_reg` and the value masked to the width of the register, for all
ten registers and every integer. -/
def Obligations.SetParamCompletes : Prop :=
  ∀ (s : State) (r : Reg) (v : Int), MayCall s → CompletesWrite (.setParam r v) s r v

/-- R163 to R166, R168, R169: each per-register set is the write of its own register; set_step_mode writes
`log2` of the divisor. -/
def Obligations.PerRegisterSetsComplete : Prop :=
  ∀ (s : State) (v : Int) (d : StepMode), MayCall s →
    CompletesWrite (.setAbsPos v) s .absolutePosition v ∧ CompletesWrite (.setMark v) s .mark v ∧
      CompletesWrite (.setSpeed v) s .speed v ∧ CompletesWrite (.setAcc v) s .acceleration v ∧
      CompletesWrite (.setDec v) s .deceleration v ∧
      CompletesWrite (.setMaxSpeed v) s .maximumSpeed v ∧
      CompletesWrite (.setMinSpeed v) s .minimumSpeed v ∧
      CompletesWrite (.setFsSpd v) s .fullStepSpeed v ∧
      CompletesWrite (.setStatus v) s .status v ∧
      CompletesWrite (.setStepMode d) s .stepMode (Nat.log2 d.divisor)

/-- R162: a register read sends `OPC_GET_PARAM | A_reg` and `n` dummies, and returns the response masked to the width,
sign-extended where the register is signed. -/
def Obligations.GetParamCompletes : Prop :=
  ∀ (s : State) (r : Reg), MayCall s → CompletesRead (.getParam r) s r

/-- R163 to R166: each per-register get is the read of its own register. -/
def Obligations.PerRegisterGetsComplete : Prop :=
  ∀ s : State, MayCall s →
    CompletesRead .getAbsPos s .absolutePosition ∧ CompletesRead .getMark s .mark ∧
      CompletesRead .getSpeed s .speed ∧ CompletesRead .getAcc s .acceleration ∧
      CompletesRead .getDec s .deceleration ∧ CompletesRead .getMaxSpeed s .maximumSpeed ∧
      CompletesRead .getMinSpeed s .minimumSpeed ∧ CompletesRead .getFsSpd s .fullStepSpeed

/-- R167: get_step_mode is one GET_PARAM transaction and no write, and returns the divisor `2^(r[2:0])` of the
register value, for a STEP_MODE register of at least three bits. -/
def Obligations.GetStepModeCompletes : Prop :=
  ∀ s : State, MayCall s → 3 ≤ s.params.chip.width .stepMode →
    ∃ d : StepMode, d.divisor = 2 ^ (responseOf s .stepMode % 8) ∧
      Completes .getStepMode s (getParamBytes s.params.chip .stepMode) (.stepMode d)

/-- R170, R171: both status reads send the opcode byte and two dummies and return `decode_status` of the two response
bytes. -/
def Obligations.StatusReadsComplete : Prop :=
  ∀ s : State, MayCall s →
    (let ts := [s.params.chip.opcGetStatus, s.params.chip.dummy, s.params.chip.dummy];
      Completes .getStatus s ts (.status (decodeStatus s.params.chip.layout
        ((chipSends s ts).getD 1 0) ((chipSends s ts).getD 2 0)))) ∧
    (let ts := [s.params.chip.opcGetParam ||| (s.params.chip.regs.get .status).addr.setWidth 8,
        s.params.chip.dummy, s.params.chip.dummy];
      Completes .getStatusNc s ts (.status (decodeStatus s.params.chip.layout
        ((chipSends s ts).getD 1 0) ((chipSends s ts).getD 2 0))))

/-- R174: the bytes an operation transmits are a function of its arguments and of `ChipConst` alone: they are its
encoding, in one transaction. -/
def Obligations.SentBytesAreTheEncoding : Prop :=
  ∀ (i : Instr) (s : State) (bs : List Byte),
    s.params.chip.statusWidthOk = true → MayCall s → encode s.params.chip i = some bs →
      ∃ t rx, exec i s = .next t ∧ t.bus = s.bus ++ [⟨s.ctx, bs, rx⟩] ∧ rx.length = bs.length

/-- R28, R140 (frame of the thirty-five operations with a transaction): no codec operation changes any state of the
block; of the motion-engine instances only the ghost bit can change. -/
def Obligations.CodecLeavesTheBlockAlone : Prop :=
  ∀ (i : Instr) (k : Command) (v : Int) (s t : State),
    i.call = some (k, v) → exec i s = .next t →
      SameBlock s t ∧
        t.ms.map (fun x => (x.caller, x.state, x.kind)) =
          s.ms.map (fun x => (x.caller, x.state, x.kind)) ∧
        (isStop k = false → t.ms = s.ms)

/-! ### The chip -/

/-- 20_memory.md R52, R66: a transaction receives one byte per slot, and the oracle's bytes are any the environment
lays down. R66 says only that `rs[1..n]` are any bytes: that all received bytes, those of slot 0 and of payload slots
included, come in order from the field `answers` is the model's own choice (DESIGN CHOICE, notes/assumptions/6). -/
def Obligations.OracleBytesAreTheEnvironments : Prop :=
  ∀ (s : State) (ts : List Byte),
    (txn ts s).1.length = ts.length ∧
      (s.chip = .oracle → ts.length ≤ s.answers.length →
        (txn ts s).1 = s.answers.take ts.length)

/-- 20_memory.md R67, R62 (assumption CHIP_HOLDS on the reference chip): a register other than STATUS reads back as
the last value written, masked to its width, and every other register reads as it did. -/
def Obligations.ReferenceChipHoldsWrites : Prop :=
  ∀ (s : State) (q : RefChip) (r : Reg) (v : Int),
    MayCall s → s.params.chip.unambiguous = true → s.chip = .reference q → r ≠ .status →
      ∃ t, exec (.setParam r v) s = .next t ∧
        responseOf t r = mask (s.params.chip.width r) v ∧
        (∀ r', r' ≠ r → responseOf t r' = responseOf s r')

/-- 20_memory.md R63, R59 (assumption CHIP_LATCH on the reference chip): of two clearing reads in a row the second
shows the same live fields and no latched flag (all live fields of the snapshot, where the three of notes/assumptions/17
are not latched); a clearing read leaves every latched bit inactive and changes nothing else, a non-clearing read
nothing at all. R97: a latched flag is cleared only by a clearing read, in whatever step; that events inside the chip
clear none, and that RESET_DEVICE may leave any (R67), is notes/assumptions/15 (DESIGN CHOICE). -/
def Obligations.ReferenceChipStatusReads : Prop :=
  (∀ (s : State) (q : RefChip),
    MayCall s → s.params.chip.statusWidthOk = true → s.params.chip.layout.wf = true →
      s.params.chip.unambiguous = true → s.chip = .reference q →
      (∃ t u v w, exec .getStatus s = .next t ∧ exec .getStatus t = .next u ∧
        t.ret = some ⟨s.ctx, .status v⟩ ∧ u.ret = some ⟨s.ctx, .status w⟩ ∧
        w.hiz = v.hiz ∧ w.busy = v.busy ∧ w.direction = v.direction ∧ w.faults = 0#16 ∧
        (s.params.chip.layout.latched &&& 0x8064#16 = 0#16 → w = { v with faults := 0#16 }) ∧
        t.chip = .reference { q with
          latch := s.params.chip.layout.activeLow &&& s.params.chip.layout.latched }) ∧
      (∃ t, exec .getStatusNc s = .next t ∧ t.chip = s.chip)) ∧
  ∀ (s t : State) (q r : RefChip) (k : Nat),
    s.chip = .reference q → step s = .next t → t.chip = .reference r →
      s.params.chip.layout.latched.getLsbD k = true →
      q.latch.getLsbD k ≠ s.params.chip.layout.activeLow.getLsbD k →
      r.latch.getLsbD k = s.params.chip.layout.activeLow.getLsbD k →
      ∃ x, t.bus = s.bus ++ [x] ∧ (commandSeen s.params.chip x = some .getStatus ∨
        commandSeen s.params.chip x = some .resetDevice)

/-- 20_memory.md R67, R64: what each command does to the reference chip. A motion command sets MOVING and the next
status read says `busy`; a stop-class command clears it and the next one says not `busy`, and after a HiZ command also
`hiz` (41_command_codec.md R152, R153; the live bit is notes/assumptions/15, DESIGN CHOICE); RESET_POSITION makes the
absolute position 0; RESET_DEVICE leaves a free value, cut to the register widths (that LATCH, the live bits and MOVING
are free too is notes/assumptions/15); SET_PARAM writes its register; GET_PARAM has no side effect (R59 (a)). -/
def Obligations.ReferenceChipCommands : Prop :=
  ∀ (s : State) (q : RefChip),
    MayCall s → s.params.chip.statusWidthOk = true → s.params.chip.layout.wf = true →
      s.params.chip.unambiguous = true → s.chip = .reference q →
      (∀ (i : Instr) (k : Command) (v : Int), i.call = some (k, v) →
        (isMotion k = true ∨ isStop k = true) →
        ∃ t u w, exec i s = .next t ∧ exec .getStatusNc t = .next u ∧
          u.ret = some ⟨s.ctx, .status w⟩ ∧ w.busy = isMotion k ∧
          (k = .softHiz ∨ k = .hardHiz → w.hiz = true) ∧
          t.chip = .reference { q with
            moving := isMotion k
            live := if k = .softHiz ∨ k = .hardHiz then
                q.live ||| 1#16 <<< s.params.chip.layout.hizBit
              else q.live }) ∧
      (∃ t, exec .resetPosition s = .next t ∧ responseOf t .absolutePosition = 0 ∧
        t.chip = .reference { q with regs := q.regs.set .absolutePosition 0 }) ∧
      (∃ t r, exec .resetDevice s = .next t ∧ t.chip = .reference r ∧
        r.latch = (Config.freeChip s.tick).latch ∧ r.live = (Config.freeChip s.tick).live ∧
        r.moving = (Config.freeChip s.tick).moving ∧
        ∀ g, r.regs.get g = (Config.freeChip s.tick).regs.get g % 2 ^ s.params.chip.width g) ∧
      (∀ (g : Reg) (v : Int), ∃ t, exec (.setParam g v) s = .next t ∧
        t.chip = .reference { q with regs := q.regs.set g (mask (s.params.chip.width g) v) }) ∧
      (∀ g : Reg, ∃ t, exec (.getParam g) s = .next t ∧ t.chip = s.chip)

/-- R96: the decoded fields of a status word, for every layout and every word. -/
def Obligations.DecodeStatusIsTheLayout : Prop :=
  ∀ (l : StatusLayout) (b1 b0 : Byte),
    let w : BitVec 16 := b1 ++ b0;
    let s := decodeStatus l b1 b0;
    s.hiz = w.getLsbD l.hizBit ∧
      s.busy = (w.getLsbD l.busyBit != l.activeLow.getLsbD l.busyBit) ∧
      (s.direction = .forward ↔ w.getLsbD l.dirBit = true) ∧
      (∀ k, k < 16 → l.latched.getLsbD k = true →
        s.fault k = (w.getLsbD k != l.activeLow.getLsbD k)) ∧
      (∀ k, l.latched.getLsbD k = false → s.fault k = false)

/-! ### The Edge Monitor, the Event Channel and the Dispatcher -/

/-- R112, the debounce filter whole: a fire that samples the stored level changes nothing at all; one that samples
another level is accepted at once, updates the latch of its own line and then pushes the event, which is appended
where there is room and discarded at a full channel, where the update stays; the other three entries and everything
else are untouched (`drops` and `history` are ghosts). -/
def Obligations.EdgeIsTheDebounceFilter : Prop :=
  ∀ (s : State) (i : ButtonId) (l : Bool) (h : Nat),
    s.ctx = .interrupt → s.handler = some h →
      (s.lvl.get i = l → exec (.edge i l) s = .next s) ∧
      (s.lvl.get i ≠ l → s.ch.length < s.params.cap → exec (.edge i l) s = .next { s with
        lvl := s.lvl.set i l, ch := s.ch ++ [⟨i, l⟩], history := s.history ++ [⟨⟨i, l⟩, true⟩] }) ∧
      (s.lvl.get i ≠ l → s.params.cap ≤ s.ch.length → exec (.edge i l) s = .next { s with
        lvl := s.lvl.set i l, drops := s.drops + 1, history := s.history ++ [⟨⟨i, l⟩, false⟩] }) ∧
      (s.lvl.set i l).get i = l ∧ (∀ j, j ≠ i → (s.lvl.set i l).get j = s.lvl.get j)

/-- R115 for any level sequence: with room in the channel, the fires of one line emit the sampled levels without
repetitions, after the stored level, in order. -/
def Obligations.FiresOfOneLineEmitTheChanges : Prop :=
  ∀ (s : State) (i : ButtonId) (h : Nat) (ls : List Bool),
    s.ctx = .interrupt → s.handler = some h → s.ch.length + ls.length ≤ s.params.cap →
      ∃ t, fireAll (ls.map fun l => ⟨i, l⟩) s = .next t ∧
        t.ch = s.ch ++ (withoutRepeats (s.lvl.get i) ls).map (fun l => ⟨i, l⟩) ∧
        t.drops = s.drops ∧ t.lvl.get i = ls.getLastD (s.lvl.get i)

/-- R126, R123 for any fires of all four lines with no POP between them: the channel keeps what it held and the first
accepted transitions up to `CAP`, in order; what comes after is dropped and counted. -/
def Obligations.FullChannelKeepsTheFirst : Prop :=
  ∀ (s : State) (h : Nat) (es : List Event),
    s.ctx = .interrupt → s.handler = some h → s.ch.length ≤ s.params.cap →
      ∃ t, fireAll es s = .next t ∧
        t.ch = (s.ch ++ acceptedOf s.lvl es).take s.params.cap ∧
        t.drops = s.drops + (s.ch.length + (acceptedOf s.lvl es).length - s.params.cap) ∧
        t.delivered = s.delivered ∧ t.disp = s.disp

/-- R120: a POP takes the head, enters the handler call and delivers; nothing else changes. -/
def Obligations.PopDeliversTheHead : Prop :=
  ∀ (s : State) (e : Event) (rest : List Event) (h : Nat),
    s.ctx = .dispatcher → s.handler = some h → s.disp = .ready → s.ch = e :: rest →
      exec .pop s = .next { s with
        ch := rest, disp := .inHandler e, delivered := s.delivered ++ [e] }

/-- R119, R120, R122: where the Dispatcher has no enabled step it waits and nothing changes: a POP on an empty channel
or inside a handler call, a return outside one or while the handler is suspended in a helper. That such a step is
answered by the unchanged state is the model's choice (notes/assumptions/10). -/
def Obligations.DispatcherWaits : Prop :=
  ∀ (s : State) (h : Nat), s.ctx = .dispatcher → s.handler = some h →
    (s.disp = .ready → s.ch = [] → exec .pop s = .next s) ∧
      (s.disp ≠ .ready → exec .pop s = .next s) ∧
      (s.disp = .ready → exec .handlerReturn s = .next s) ∧
      ((∃ x ∈ s.ms, x.caller = .dispatcher) → exec .handlerReturn s = .next s)

/-- R122: the return of a handler whose steps are over makes the Dispatcher ready; nothing else changes. -/
def Obligations.HandlerReturnMakesReady : Prop :=
  ∀ (s : State) (e : Event),
    s.ctx = .dispatcher → s.disp = .inHandler e → (∀ x ∈ s.ms, x.caller ≠ .dispatcher) →
      exec .handlerReturn s = .next { s with disp := .ready }

/-- R125: `n` pairs of POP and HANDLER_RETURN deliver the first `n` events of the channel in order. -/
def Obligations.DrainDeliversInOrder : Prop :=
  ∀ (s : State) (h n : Nat),
    s.ctx = .dispatcher → s.handler = some h → s.disp = .ready →
      (∀ x ∈ s.ms, x.caller ≠ .dispatcher) → n ≤ s.ch.length →
      drain n s = .next { s with
        ch := s.ch.drop n, delivered := s.delivered ++ s.ch.take n }

/-- R124, 70_reset_and_hazards.md R290, R293, 10_state.md R37: the registration constructs the block with the reset
values of LVL, CH and DISP; a second one is refused, and so are a fire and a POP before the first. R37 and R290 list no
instance at that moment: that an instance another task has live stays live through the registration is the model's own
choice (DESIGN CHOICE, unsafe: notes/assumptions/13), and so is that a second call is refused even of a suspended
task. -/
def Obligations.RegistrationConstructsOnce : Prop :=
  ∀ (s : State) (h n : Nat) (i : ButtonId) (l : Bool),
    (s.ctx = .task n → s.handler = none → (∀ x ∈ s.ms, x.caller ≠ .task n) →
      exec (.registerHandler h) s = .next { s with
        lvl := ⟨false, false, false, false⟩, ch := [], disp := .ready, handler := some h,
        drops := 0, delivered := [], history := [] }) ∧
    (s.ctx = .task n → s.handler ≠ none →
      exec (.registerHandler h) s = .refused .secondRegistration) ∧
    (s.ctx = .interrupt → s.handler = none → exec (.edge i l) s = .refused .notRegistered) ∧
    (s.ctx = .dispatcher → s.handler = none → exec .pop s = .refused .notRegistered)

/-! ### Invariants of every step -/

/-- 10_state.md R24, R38 (a), R33 (d): `len(CH) ≤ CAP`, and `DROPS` counts the discarding pushes. -/
def Obligations.ChannelStaysBounded : Prop :=
  ∀ s t : State, step s = .next t →
    (ChannelBounded s → ChannelBounded t) ∧ (DropsCounted s → DropsCounted t)

/-- 20_memory.md R68, 40_edge_monitor.md R118, R125: what entered the channel is, in order, what was delivered and
then what the channel holds. -/
def Obligations.DeliveryOrderIsKept : Prop :=
  ∀ s t : State, DeliveredInOrder s → step s = .next t → DeliveredInOrder t

/-- 10_state.md R38 (b), (c): the level table holds the level of the last accepted transition, and the accepted
transitions of one identity alternate, starting with `true`. -/
def Obligations.LevelTableIsKeptCurrent : Prop :=
  ∀ s t : State, LevelTableCurrent s → TransitionsAlternate s → step s = .next t →
    LevelTableCurrent t ∧ TransitionsAlternate t

/-- 10_state.md R27: the event of a running handler call is the last one delivered. -/
def Obligations.HandlerCallIsOfTheLastEvent : Prop :=
  ∀ s t : State, HandlerRunsOnLast s → step s = .next t → HandlerRunsOnLast t

/-- 43_motion_engine.md R221, R222, 10_state.md R29: every instance stays in a state of the transition table, no
caller has two, and an instance of the Dispatcher task belongs to a running handler. -/
def Obligations.EngineInvariantIsKept : Prop :=
  ∀ s t : State, InstancesOk s → CallersOk s → EmptyBeforeRegistration s → step s = .next t →
    InstancesOk t ∧ CallersOk t ∧ EmptyBeforeRegistration t

/-- 20_memory.md R52, R67: every transaction on the bus exchanged one byte per slot, and the reference chip's registers
stay within their widths. -/
def Obligations.BusAndChipStayWellFormed : Prop :=
  ∀ s t : State, step s = .next t →
    (BusWellFormed s → BusWellFormed t) ∧ (ChipWellFormed s → ChipWellFormed t)

/-- 10_state.md R37: the state after reset, which is quiescent (70_reset_and_hazards.md R296) and meets every
invariant above. The registered handler's number, the low lines and the oracle are the model's own choices
(notes/assumptions/5, 6). -/
def Obligations.ResetState : Prop :=
  (∀ i, State.reset.lvl.get i = false) ∧ State.reset.ch = [] ∧ State.reset.disp = .ready ∧
    State.reset.ms = [] ∧ State.reset.drops = 0 ∧ State.reset.handler.isSome = true ∧
    State.reset.params.wf = true ∧ Quiescent State.reset ∧
    ChannelBounded State.reset ∧ DropsCounted State.reset ∧ DeliveredInOrder State.reset ∧
    LevelTableCurrent State.reset ∧ TransitionsAlternate State.reset ∧
    HandlerRunsOnLast State.reset ∧ InstancesOk State.reset ∧ CallersOk State.reset ∧
    EmptyBeforeRegistration State.reset ∧ BusWellFormed State.reset ∧ ChipWellFormed State.reset

/-! ### Rules of the whole machine -/

/-- 20_memory.md R69, 10_state.md R21: the level table is written only by a fire, at the entry of its own line; the
channel is lengthened only by a fire and shortened only by a POP of the Dispatcher; the handler is called only by a POP,
on the head of the channel. The one other writer of each is the construction (70_reset_and_hazards.md R290). -/
def Obligations.SingleWriters : Prop :=
  ∀ (i : Instr) (s t : State), exec i s = .next t → (∀ h, i ≠ .registerHandler h) →
    (∀ b, t.lvl.get b ≠ s.lvl.get b → ∃ l, i = .edge b l ∧ s.ctx = .interrupt) ∧
    (t.ch ≠ s.ch →
      (∃ b l, i = .edge b l ∧ s.ctx = .interrupt ∧ t.ch = s.ch ++ [⟨b, l⟩]) ∨
        (i = .pop ∧ s.ctx = .dispatcher ∧ ∃ e, s.ch = e :: t.ch)) ∧
    (t.delivered ≠ s.delivered →
      i = .pop ∧ s.ctx = .dispatcher ∧ ∃ e, s.ch.head? = some e ∧ t.delivered = s.delivered ++ [e])

/-- 10_state.md R26, R35: no step changes the parameters, and once a handler is registered none changes it. -/
def Obligations.ConfigurationNeverChanges : Prop :=
  ∀ s t : State, step s = .next t →
    t.params = s.params ∧ (∀ h, s.handler = some h → t.handler = some h)

/-- The step runs the decoded instruction: a call laid down is exec of its instruction in its context, but a conversion
is no step (00_scope.md R16): its value is handed to the caller and the step is the one laid down after it, which is
how the model reads R16 beside 40_edge_monitor.md R121 (DESIGN CHOICE, notes/assumptions/23). A frame is the call its
bytes decode to, a fire samples its line (40_edge_monitor.md R111), and a word of the opcode table placed by
withFetchWord runs next, in a task that is not suspended (notes/assumptions/4, 8). -/
def Obligations.StepRunsTheDecodedInstruction : Prop :=
  ∀ (s : State) (c : Context) (i : Instr) (bs : List Byte) (b : ButtonId) (rest : List Action)
    (nbits w : Nat),
    (s.script = .op c i :: rest → isConversion i = false →
      step s = exec i { s with script := rest, ctx := c }) ∧
    (s.script = .op c i :: rest → isConversion i = true →
      ∃ v, exec i { s with ctx := c } = .next { s with ctx := c, ret := some ⟨c, v⟩ } ∧
        step s = step { s with script := rest, ret := some ⟨c, v⟩ }) ∧
    (s.script = .frame c bs :: rest → decodeFrame s.params.chip bs = .ok i →
      step s = exec i { s with script := rest, ctx := c }) ∧
    (s.script = .fire b :: rest →
      step s = exec (.edge b (s.line.get b)) { s with script := rest, ctx := .interrupt }) ∧
    (s.params.chip = referenceChip → decodeTableWord nbits w = some i →
      step (s.withFetchWord nbits w) = exec i { s with ctx := .task (freshTask s) }) ∧
    suspended s (.task (freshTask s)) = false

/-- 60_exceptions.md R270, 00_scope.md R16: the other steps a schedule can lay down: the four steps of an instance, the
lines, the end of a motion, the events inside the chip, bytes that are no transaction; and with nothing laid down the
step is the environment's free choice (notes/assumptions/4). The model's own choices here: a step on bytes that are no
transaction is refused (DESIGN CHOICE, notes/assumptions/16; R92 of 30_encoding.md hangs no behaviour on that verdict),
and an event inside the chip may change all of it but clears no latched flag (DESIGN CHOICE, notes/assumptions/15). -/
def Obligations.StepRunsTheOtherAgents : Prop :=
  ∀ (s : State) (m : Context) (b : ButtonId) (l : Bool) (q r : RefChip) (bs : List Byte)
    (e : DecodeError) (rest : List Action),
    (s.script = .seek m :: rest → step s = .next (seekStep m { s with script := rest, ctx := m })) ∧
    (s.script = .enterWait m :: rest →
      step s = .next (enterWaitStep m { s with script := rest, ctx := m })) ∧
    (s.script = .poll m :: rest → step s = .next (pollStep m { s with script := rest, ctx := m })) ∧
    (s.script = .resume m :: rest →
      step s = .next (resumeStep m { s with script := rest, ctx := m })) ∧
    (s.script = .setLine b l :: rest →
      step s = .next { s with script := rest, line := s.line.set b l }) ∧
    (s.script = .motionComplete :: rest → s.chip = .oracle → step s = .next { s with script := rest }) ∧
    (s.script = .motionComplete :: rest → s.chip = .reference q →
      step s = .next { s with script := rest, chip := .reference { q with moving := false } }) ∧
    (s.script = .chipStep r :: rest → s.chip = .oracle → step s = .next { s with script := rest }) ∧
    (s.script = .chipStep r :: rest → s.chip = .reference q →
      ∃ t, step s = .next { s with script := rest, chip := .reference t } ∧
        t.live = r.live ∧ t.moving = r.moving ∧
        (∀ g, t.regs.get g = r.regs.get g % 2 ^ s.params.chip.width g) ∧
        ∀ k, s.params.chip.layout.latched.getLsbD k = true →
          (t.latch.getLsbD k != s.params.chip.layout.activeLow.getLsbD k) =
            ((q.latch.getLsbD k != s.params.chip.layout.activeLow.getLsbD k) ||
              (r.latch.getLsbD k != s.params.chip.layout.activeLow.getLsbD k))) ∧
    (s.script = .frame m bs :: rest → decodeFrame s.params.chip bs = .error e →
      step s = .refused (.invalidFrame e)) ∧
    (s.script = [] → step s = runAction (Config.freeAction s.tick) { s with tick := s.tick + 1 })

/-! ### The Motion State Machine -/

/-- 43_motion_engine.md R222, R223, R225, R226: a call of a helper creates an Idle instance of its caller, with its
kind and no stop seen, and changes nothing else; the caller is then suspended. -/
def Obligations.HelpersCreateAnInstance : Prop :=
  ∀ (s : State) (p : Int), MayCall s →
    CompletesCreate .wait s .wait ∧ CompletesCreate .approachHome s .approachHome ∧
      CompletesCreate (.approachTarget p) s (.approachTarget p) ∧
      (∀ i t, i = .wait ∨ i = .approachHome ∨ i = .approachTarget p → exec i s = .next t → ¬ MayCall t)

/-- R222 (SEEK), R225, R226: an Idle maneuver goes to Seeking with its one motion transaction, and nothing else of the
block or of any instance changes; that nothing changes where SEEK is not enabled is the model's own choice (DESIGN
CHOICE, notes/assumptions/10). -/
def Obligations.SeekSendsTheMotionCommand : Prop :=
  ∀ (s : State) (m : Context) (p : Int) (b : Bool),
    (instanceOf m s = some ⟨m, .idle, .approachHome, b⟩ →
      engineStateOf m (seekStep m s) = some .seeking ∧
        SendsOne s (seekStep m s) [s.params.chip.opcGoHome] ∧ SameBlock s (seekStep m s) ∧
        (seekStep m s).ms = (s.ms.map fun y =>
          if y.caller = m then { y with state := .seeking } else y) ∧
        (seekStep m s).ret = s.ret) ∧
    (instanceOf m s = some ⟨m, .idle, .approachTarget p, b⟩ →
      engineStateOf m (seekStep m s) = some .seeking ∧
        SendsOne s (seekStep m s) (s.params.chip.opcGoTo ::
          beBytes (nBytes (s.params.chip.width .absolutePosition))
            (mask (s.params.chip.width .absolutePosition) p)) ∧ SameBlock s (seekStep m s) ∧
        (seekStep m s).ms = (s.ms.map fun y =>
          if y.caller = m then { y with state := .seeking } else y) ∧
        (seekStep m s).ret = s.ret) ∧
    (instanceOf m s = some ⟨m, .idle, .wait, b⟩ → seekStep m s = s) ∧
    (engineStateOf m s ≠ some .idle → seekStep m s = s)

/-- R222 (ENTER_WAIT, RETURN): an instance enters Waiting from Seeking, or from Idle for a bare wait; a final instance
is destroyed and its caller may run again; that nothing changes from every other state is the model's own choice
(DESIGN CHOICE, notes/assumptions/10). -/
def Obligations.EnterWaitAndReturn : Prop :=
  ∀ (s : State) (m : Context) (x : Instance), instanceOf m s = some x →
    (x.state = .seeking ∨ (x.state = .idle ∧ x.kind = .wait) →
      enterWaitStep m s = { s with
        ms := s.ms.map fun y => if y.caller = m then { y with state := .waiting } else y }) ∧
    (¬ (x.state = .seeking ∨ (x.state = .idle ∧ x.kind = .wait)) → enterWaitStep m s = s) ∧
    (x.state = .done ∨ x.state = .aborted →
      resumeStep m s = { s with
        ms := s.ms.filter fun y => y.caller != m, ret := some ⟨s.ctx, .nothing⟩ } ∧
      suspended (resumeStep m s) m = false) ∧
    (¬ (x.state = .done ∨ x.state = .aborted) → resumeStep m s = s)

/-- R222 (POLL), R223, R233: a poll is one status read in the form WAIT_CLEARING selects; it stays in Waiting while
the decoded `busy` is true and else ends in Aborted or Done by the ghost bit, and nothing else of the block or of any
instance changes; that nothing changes where POLL is not enabled is the model's own choice (DESIGN CHOICE,
notes/assumptions/10). -/
def Obligations.PollReadsTheStatus : Prop :=
  ∀ (s : State) (m : Context) (x : Instance), instanceOf m s = some x →
    (x.state = .waiting →
      (let ts := [(if s.params.waitClearing then s.params.chip.opcGetStatus
            else s.params.chip.opcGetParam ||| (s.params.chip.regs.get .status).addr.setWidth 8),
          s.params.chip.dummy, s.params.chip.dummy];
        let busy := (decodeStatus s.params.chip.layout
          ((chipSends s ts).getD 1 0) ((chipSends s ts).getD 2 0)).busy;
        SendsOne s (pollStep m s) ts ∧ SameBlock s (pollStep m s) ∧
          (pollStep m s).ret = s.ret ∧
          (pollStep m s).ms = (if busy then s.ms else s.ms.map fun y =>
            if y.caller = m then { y with state := if x.stopSeen then .aborted else .done } else y) ∧
          engineStateOf m (pollStep m s) =
            some (if busy then .waiting else if x.stopSeen then .aborted else .done))) ∧
    (x.state ≠ .waiting → pollStep m s = s)

/-- R230, R232, C3: an instance whose polls read busy `k` times and then not busy cannot return before poll `k + 1`,
ends there (at the first poll for `k = 0`), and is then destroyed by its return; `k + 1` transactions were made. R222
and R230 say only that a RETURN before the end is not enabled: that it changes nothing is the model's own choice (DESIGN
CHOICE, notes/assumptions/10). -/
def Obligations.HelperReturnsAfterTheFirstNotBusyPoll : Prop :=
  ∀ (s : State) (m : Context) (x : Instance) (k : Nat),
    instanceOf m s = some x → x.state = .waiting →
      (∀ j, j < k → pollBusy (polls m j s) = true) → pollBusy (polls m k s) = false →
      (∀ j, j ≤ k → engineStateOf m (polls m j s) = some .waiting ∧
        resumeStep m (polls m j s) = polls m j s) ∧
      engineStateOf m (polls m (k + 1) s) = some (if x.stopSeen then .aborted else .done) ∧
      engineStateOf m (resumeStep m (polls m (k + 1) s)) = none ∧
      (polls m (k + 1) s).bus.length = s.bus.length + (k + 1)

/-- R224, R229: there is no timeout: while every poll reads busy the instance stays in Waiting, also after a stop
command, and every poll is enabled. -/
def Obligations.WaitHasNoTimeout : Prop :=
  ∀ (s : State) (m : Context) (x : Instance),
    instanceOf m s = some x → x.state = .waiting →
      (∀ j, pollBusy (polls m j s) = true) →
      ∀ n, engineStateOf m (polls m n s) = some .waiting ∧
        (polls m n s).bus.length = s.bus.length + n

/-- R231: the steps of one instance leave the instances of every other caller as they are. -/
def Obligations.InstancesAreIndependent : Prop :=
  ∀ (s : State) (m n : Context), n ≠ m →
    instanceOf n (seekStep m s) = instanceOf n s ∧
      instanceOf n (enterWaitStep m s) = instanceOf n s ∧
      instanceOf n (pollStep m s) = instanceOf n s ∧
      instanceOf n (resumeStep m s) = instanceOf n s

/-! ### The Unit Conversion Layer -/

/-- R191, R195 to R206, R210: the twelve functions complete in every state, with the value of the general form in exact
arithmetic rounding half up (notes/assumptions/19), and change nothing else. That the value is handed back in `ret`, and
in every context, is the model's own choice (DESIGN CHOICE, notes/assumptions/7, 12). -/
def Obligations.ConversionsComplete : Prop :=
  ∀ (s : State) (v : Rat) (t : Int),
    (let ticks := fun (q : ConvConst) =>
        let y := (v * q.k - q.off + 1 / 2).floor
        Value.int (if y < q.tmin then q.tmin else if q.tmax < y then q.tmax else y);
      CompletesPure (.calculateSpeed v) s (ticks s.params.conv.speed) ∧
        CompletesPure (.calculateAcceleration v) s (ticks s.params.conv.acceleration) ∧
        CompletesPure (.calculateDeceleration v) s (ticks s.params.conv.deceleration) ∧
        CompletesPure (.calculateMaxSpeed v) s (ticks s.params.conv.maximumSpeed) ∧
        CompletesPure (.calculateMinSpeed v) s (ticks s.params.conv.minimumSpeed) ∧
        CompletesPure (.calculateFsSpd v) s (ticks s.params.conv.fullStepSpeed)) ∧
    (let back := fun (q : ConvConst) => Value.phys ((t + q.off) / q.k);
      CompletesPure (.parseSpeed t) s (back s.params.conv.speed) ∧
        CompletesPure (.parseAcceleration t) s (back s.params.conv.acceleration) ∧
        CompletesPure (.parseDeceleration t) s (back s.params.conv.deceleration) ∧
        CompletesPure (.parseMaxSpeed t) s (back s.params.conv.maximumSpeed) ∧
        CompletesPure (.parseMinSpeed t) s (back s.params.conv.minimumSpeed) ∧
        CompletesPure (.parseFsSpd t) s (back s.params.conv.fullStepSpeed))

/-- R193: a value whose exact tick value is at or above `TMAX_q` gives `TMAX_q`, one at or below `TMIN_q` gives `TMIN_q`,
a negative one among them where `OFF_q` is not negative; so the result lies in `TMIN_q .. TMAX_q`, and a field wide
enough for `TMAX_q` carries it unchanged. -/
def Obligations.CalculateSaturates : Prop :=
  ∀ (q : ConvConst) (v : Rat), q.wf = true →
    ((q.tmax : Rat) ≤ v * q.k - q.off → calculate q v = q.tmax) ∧
      (v * q.k - q.off ≤ (q.tmin : Rat) → calculate q v = q.tmin) ∧
      (0 ≤ q.off → v ≤ 0 → calculate q v = q.tmin) ∧
      (q.tmin : Int) ≤ calculate q v ∧ calculate q v ≤ q.tmax ∧
      (∀ w, q.tmax < 2 ^ w → (mask w (calculate q v) : Int) = calculate q v)

/-- R207: within the valid range the round trip is off by at most half a quantization step. -/
def Obligations.RoundTripWithinHalfAStep : Prop :=
  ∀ (q : ConvConst) (x : Rat), q.wf = true → parse q q.tmin ≤ x → x ≤ parse q q.tmax →
    |parse q (calculate q x) - x| ≤ 1 / (2 * q.k)

/-- R208: for ticks in range the other round trip is exact. -/
def Obligations.TicksRoundTripExactly : Prop :=
  ∀ (q : ConvConst) (t : Int), q.wf = true → (q.tmin : Int) ≤ t → t ≤ q.tmax →
    calculate q (parse q t) = t

/-- R211: `calculate_q` is non-decreasing and `parse_q` strictly increasing. -/
def Obligations.ConversionsAreMonotone : Prop :=
  ∀ q : ConvConst, q.wf = true →
    (∀ v w : Rat, v ≤ w → calculate q v ≤ calculate q w) ∧
      (∀ t u : Int, t < u → parse q t < parse q u)
end

