-- ==== Sys2Proof/Laws/Bits.lean ====
section
/-!
SUPPORT. Small facts about masking, splitting and joining (00_scope.md R14, R15).
-/
namespace Sys2Proof

/-- The masked value as an integer. -/
theorem mask_cast (w : Nat) (v : Int) : (mask w v : Int) = v % ((2 ^ w : Nat) : Int) := by
  have h : (0 : Int) < ((2 ^ w : Nat) : Int) := by positivity
  rw [mask, Int.toNat_of_nonneg (Int.emod_nonneg _ h.ne')]

/-- A masked value fits its width. -/
theorem mask_lt (w : Nat) (v : Int) : mask w v < 2 ^ w := by
  have h : (0 : Int) < ((2 ^ w : Nat) : Int) := by positivity
  have := Int.emod_lt_of_pos v h
  rw [← mask_cast] at this
  exact_mod_cast this

/-- Masking a natural number. -/
theorem mask_natCast (w n : Nat) : mask w (n : Int) = n % 2 ^ w := by
  have := mask_cast w n
  rw [← Int.natCast_mod] at this
  exact_mod_cast this

/-- A value that fits is not changed by the mask. -/
theorem mask_of_lt {w n : Nat} (h : n < 2 ^ w) : mask w (n : Int) = n := by
  rw [mask_natCast, Nat.mod_eq_of_lt h]

@[simp] theorem beBytes_length (n v : Nat) : (beBytes n v).length = n := by
  induction n with
  | zero => rfl
  | succ n ih => simp [beBytes, ih]

/-- A joined value fits its bytes. -/
theorem beValue_lt (bs : List Byte) : beValue bs < 256 ^ bs.length := by
  induction bs with
  | nil => simp [beValue]
  | cons b bs ih =>
    have hb : b.toNat < 256 := b.isLt
    have : b.toNat * 256 ^ bs.length + 256 ^ bs.length ≤ 256 * 256 ^ bs.length := by
      rw [← Nat.succ_mul]; exact Nat.mul_le_mul_right _ hb
    simp only [beValue, List.length_cons, pow_succ]
    omega

/-- The bytes of a field hold its width. -/
theorem two_pow_le_bytes (w : Nat) : 2 ^ w ≤ 256 ^ nBytes w := by
  rw [show (256 : Nat) = 2 ^ 8 from rfl, ← pow_mul]
  exact Nat.pow_le_pow_right (by norm_num) (by unfold nBytes; omega)

/-- A width of at most 32 bits takes at most four bytes (30_encoding.md R84). -/
theorem nBytes_le_four {w : Nat} (h : w ≤ 32) : nBytes w ≤ 4 := by
  unfold nBytes; omega

@[simp] theorem PerButton.get_set_self {α : Type} (t : PerButton α) (i : ButtonId) (x : α) :
    (t.set i x).get i = x := by
  cases i <;> rfl

theorem PerButton.get_set_of_ne {α : Type} (t : PerButton α) {i j : ButtonId} (x : α) (h : j ≠ i) :
    (t.set i x).get j = t.get j := by
  cases i <;> cases j <;> first | rfl | exact absurd rfl h

@[simp] theorem PerReg.get_set_self {α : Type} (t : PerReg α) (r : Reg) (x : α) :
    (t.set r x).get r = x := by
  cases r <;> rfl

theorem PerReg.get_set_of_ne {α : Type} (t : PerReg α) {r q : Reg} (x : α) (h : q ≠ r) :
    (t.set r x).get q = t.get q := by
  cases r <;> cases q <;> first | rfl | exact absurd rfl h

/-- Every register is in the list of the ten. -/
theorem Reg.mem_all (r : Reg) : r ∈ Reg.all := by
  cases r <;> decide

/-- Every command is in the list of all. -/
theorem Command.mem_all (k : Command) : k ∈ Command.all := by
  cases k with
  | setParam r => cases r <;> decide
  | getParam r => cases r <;> decide
  | run d => cases d <;> decide
  | move d => cases d <;> decide
  | goToDir d => cases d <;> decide
  | _ => decide

/-- In an unambiguous opcode map an opcode byte selects its own command. -/
theorem commandOf_commandByte {c : ChipConst} (h : c.unambiguous = true) (k : Command) :
    commandOf c (commandByte c k) = .ok k := by
  have hk := List.all_eq_true.mp h k (Command.mem_all k)
  split at hk
  · next e => rw [e, eq_of_beq hk]
  · cases hk

/-- The widths of a well-formed record, register by register. -/
theorem ChipConst.width_bounds {c : ChipConst} (h : c.widthsOk = true) (r : Reg) :
    1 ≤ c.width r ∧ c.width r ≤ 32 :=
  of_decide_eq_true (List.all_eq_true.mp h r (Reg.mem_all r))

end Sys2Proof
end

