-- ==== Sys2Proof/Laws/State.lean ====
section
/-!
SUPPORT. For each named operation, what it does to each field of the state: one small lemma per field, so that no
later proof unfolds a record update.
-/
namespace Sys2Proof.Machine

@[simp] theorem returnValue_params (v : Value) (s : State) : (returnValue v s).params = s.params := rfl

@[simp] theorem returnValue_lvl (v : Value) (s : State) : (returnValue v s).lvl = s.lvl := rfl

@[simp] theorem returnValue_ch (v : Value) (s : State) : (returnValue v s).ch = s.ch := rfl

@[simp] theorem returnValue_disp (v : Value) (s : State) : (returnValue v s).disp = s.disp := rfl

@[simp] theorem returnValue_ms (v : Value) (s : State) : (returnValue v s).ms = s.ms := rfl

@[simp] theorem returnValue_handler (v : Value) (s : State) : (returnValue v s).handler = s.handler := rfl

@[simp] theorem returnValue_line (v : Value) (s : State) : (returnValue v s).line = s.line := rfl

@[simp] theorem returnValue_chip (v : Value) (s : State) : (returnValue v s).chip = s.chip := rfl

@[simp] theorem returnValue_drops (v : Value) (s : State) : (returnValue v s).drops = s.drops := rfl

@[simp] theorem returnValue_ctx (v : Value) (s : State) : (returnValue v s).ctx = s.ctx := rfl

@[simp] theorem returnValue_ret (v : Value) (s : State) :
    (returnValue v s).ret = some ⟨s.ctx, v⟩ := rfl

@[simp] theorem returnValue_bus (v : Value) (s : State) : (returnValue v s).bus = s.bus := rfl

@[simp] theorem returnValue_delivered (v : Value) (s : State) : (returnValue v s).delivered = s.delivered := rfl

@[simp] theorem returnValue_history (v : Value) (s : State) : (returnValue v s).history = s.history := rfl

@[simp] theorem returnValue_script (v : Value) (s : State) : (returnValue v s).script = s.script := rfl

@[simp] theorem returnValue_answers (v : Value) (s : State) : (returnValue v s).answers = s.answers := rfl

@[simp] theorem returnValue_tick (v : Value) (s : State) : (returnValue v s).tick = s.tick := rfl

@[simp] theorem txn_params (ts : List Byte) (s : State) : (txn ts s).2.params = s.params := rfl

@[simp] theorem txn_lvl (ts : List Byte) (s : State) : (txn ts s).2.lvl = s.lvl := rfl

@[simp] theorem txn_ch (ts : List Byte) (s : State) : (txn ts s).2.ch = s.ch := rfl

@[simp] theorem txn_disp (ts : List Byte) (s : State) : (txn ts s).2.disp = s.disp := rfl

@[simp] theorem txn_ms (ts : List Byte) (s : State) : (txn ts s).2.ms = s.ms := rfl

@[simp] theorem txn_handler (ts : List Byte) (s : State) : (txn ts s).2.handler = s.handler := rfl

@[simp] theorem txn_line (ts : List Byte) (s : State) : (txn ts s).2.line = s.line := rfl

@[simp] theorem txn_chip (ts : List Byte) (s : State) :
    (txn ts s).2.chip = chipAfter s.params.chip (Config.freeChip s.tick) s.chip ts := rfl

@[simp] theorem txn_drops (ts : List Byte) (s : State) : (txn ts s).2.drops = s.drops := rfl

@[simp] theorem txn_ctx (ts : List Byte) (s : State) : (txn ts s).2.ctx = s.ctx := rfl

@[simp] theorem txn_ret (ts : List Byte) (s : State) : (txn ts s).2.ret = s.ret := rfl

@[simp] theorem txn_bus (ts : List Byte) (s : State) :
    (txn ts s).2.bus = s.bus ++ [⟨s.ctx, ts, (txn ts s).1⟩] := rfl

@[simp] theorem txn_delivered (ts : List Byte) (s : State) : (txn ts s).2.delivered = s.delivered := rfl

@[simp] theorem txn_history (ts : List Byte) (s : State) : (txn ts s).2.history = s.history := rfl

@[simp] theorem txn_script (ts : List Byte) (s : State) : (txn ts s).2.script = s.script := rfl

@[simp] theorem txn_answers (ts : List Byte) (s : State) :
    (txn ts s).2.answers = s.answers.drop ts.length := rfl

@[simp] theorem txn_tick (ts : List Byte) (s : State) :
    (txn ts s).2.tick = s.tick + 1 := rfl

@[simp] theorem emitF0_params (op : Byte) (s : State) : (emitF0 op s).params = s.params := rfl

@[simp] theorem emitF0_lvl (op : Byte) (s : State) : (emitF0 op s).lvl = s.lvl := rfl

@[simp] theorem emitF0_ch (op : Byte) (s : State) : (emitF0 op s).ch = s.ch := rfl

@[simp] theorem emitF0_disp (op : Byte) (s : State) : (emitF0 op s).disp = s.disp := rfl

@[simp] theorem emitF0_ms (op : Byte) (s : State) : (emitF0 op s).ms = s.ms := rfl

@[simp] theorem emitF0_handler (op : Byte) (s : State) : (emitF0 op s).handler = s.handler := rfl

@[simp] theorem emitF0_line (op : Byte) (s : State) : (emitF0 op s).line = s.line := rfl

@[simp] theorem emitF0_drops (op : Byte) (s : State) : (emitF0 op s).drops = s.drops := rfl

@[simp] theorem emitF0_ctx (op : Byte) (s : State) : (emitF0 op s).ctx = s.ctx := rfl

@[simp] theorem emitF0_ret (op : Byte) (s : State) : (emitF0 op s).ret = s.ret := rfl

@[simp] theorem emitF0_delivered (op : Byte) (s : State) : (emitF0 op s).delivered = s.delivered := rfl

@[simp] theorem emitF0_history (op : Byte) (s : State) : (emitF0 op s).history = s.history := rfl

@[simp] theorem emitF0_script (op : Byte) (s : State) : (emitF0 op s).script = s.script := rfl

@[simp] theorem emitFW_params (op : Byte) (w : Nat) (v : Int) (s : State) : (emitFW op w v s).params = s.params := rfl

@[simp] theorem emitFW_lvl (op : Byte) (w : Nat) (v : Int) (s : State) : (emitFW op w v s).lvl = s.lvl := rfl

@[simp] theorem emitFW_ch (op : Byte) (w : Nat) (v : Int) (s : State) : (emitFW op w v s).ch = s.ch := rfl

@[simp] theorem emitFW_disp (op : Byte) (w : Nat) (v : Int) (s : State) : (emitFW op w v s).disp = s.disp := rfl

@[simp] theorem emitFW_ms (op : Byte) (w : Nat) (v : Int) (s : State) : (emitFW op w v s).ms = s.ms := rfl

@[simp] theorem emitFW_handler (op : Byte) (w : Nat) (v : Int) (s : State) : (emitFW op w v s).handler = s.handler 
    := rfl

@[simp] theorem emitFW_line (op : Byte) (w : Nat) (v : Int) (s : State) : (emitFW op w v s).line = s.line := rfl

@[simp] theorem emitFW_drops (op : Byte) (w : Nat) (v : Int) (s : State) : (emitFW op w v s).drops = s.drops := rfl

@[simp] theorem emitFW_ctx (op : Byte) (w : Nat) (v : Int) (s : State) : (emitFW op w v s).ctx = s.ctx := rfl

@[simp] theorem emitFW_ret (op : Byte) (w : Nat) (v : Int) (s : State) : (emitFW op w v s).ret = s.ret := rfl

@[simp] theorem emitFW_delivered (op : Byte) (w : Nat) (v : Int) (s : State) : (emitFW op w v s).delivered = s.delivered 
    := rfl

@[simp] theorem emitFW_history (op : Byte) (w : Nat) (v : Int) (s : State) : (emitFW op w v s).history = s.history 
    := rfl

@[simp] theorem emitFW_script (op : Byte) (w : Nat) (v : Int) (s : State) : (emitFW op w v s).script = s.script := rfl

@[simp] theorem emitFR_params (op : Byte) (w : Nat) (s : State) : (emitFR op w s).2.params = s.params := rfl

@[simp] theorem emitFR_lvl (op : Byte) (w : Nat) (s : State) : (emitFR op w s).2.lvl = s.lvl := rfl

@[simp] theorem emitFR_ch (op : Byte) (w : Nat) (s : State) : (emitFR op w s).2.ch = s.ch := rfl

@[simp] theorem emitFR_disp (op : Byte) (w : Nat) (s : State) : (emitFR op w s).2.disp = s.disp := rfl

@[simp] theorem emitFR_ms (op : Byte) (w : Nat) (s : State) : (emitFR op w s).2.ms = s.ms := rfl

@[simp] theorem emitFR_handler (op : Byte) (w : Nat) (s : State) : (emitFR op w s).2.handler = s.handler := rfl

@[simp] theorem emitFR_line (op : Byte) (w : Nat) (s : State) : (emitFR op w s).2.line = s.line := rfl

@[simp] theorem emitFR_drops (op : Byte) (w : Nat) (s : State) : (emitFR op w s).2.drops = s.drops := rfl

@[simp] theorem emitFR_ctx (op : Byte) (w : Nat) (s : State) : (emitFR op w s).2.ctx = s.ctx := rfl

@[simp] theorem emitFR_ret (op : Byte) (w : Nat) (s : State) : (emitFR op w s).2.ret = s.ret := rfl

@[simp] theorem emitFR_delivered (op : Byte) (w : Nat) (s : State) : (emitFR op w s).2.delivered = s.delivered := rfl

@[simp] theorem emitFR_history (op : Byte) (w : Nat) (s : State) : (emitFR op w s).2.history = s.history := rfl

@[simp] theorem emitFR_script (op : Byte) (w : Nat) (s : State) : (emitFR op w s).2.script = s.script := rfl

@[simp] theorem emitStop_params (op : Byte) (s : State) : (emitStop op s).params = s.params := rfl

@[simp] theorem emitStop_lvl (op : Byte) (s : State) : (emitStop op s).lvl = s.lvl := rfl

@[simp] theorem emitStop_ch (op : Byte) (s : State) : (emitStop op s).ch = s.ch := rfl

@[simp] theorem emitStop_disp (op : Byte) (s : State) : (emitStop op s).disp = s.disp := rfl

@[simp] theorem emitStop_ms (op : Byte) (s : State) :
    (emitStop op s).ms = s.ms.map markInstance := rfl

@[simp] theorem emitStop_handler (op : Byte) (s : State) : (emitStop op s).handler = s.handler := rfl

@[simp] theorem emitStop_line (op : Byte) (s : State) : (emitStop op s).line = s.line := rfl

@[simp] theorem emitStop_drops (op : Byte) (s : State) : (emitStop op s).drops = s.drops := rfl

@[simp] theorem emitStop_ctx (op : Byte) (s : State) : (emitStop op s).ctx = s.ctx := rfl

@[simp] theorem emitStop_ret (op : Byte) (s : State) : (emitStop op s).ret = s.ret := rfl

@[simp] theorem emitStop_delivered (op : Byte) (s : State) : (emitStop op s).delivered = s.delivered := rfl

@[simp] theorem emitStop_history (op : Byte) (s : State) : (emitStop op s).history = s.history := rfl

@[simp] theorem emitStop_script (op : Byte) (s : State) : (emitStop op s).script = s.script := rfl

@[simp] theorem memRead_params (a : BitVec 5) (n : Nat) (s : State) : (memRead a n s).2.params = s.params := rfl

@[simp] theorem memRead_lvl (a : BitVec 5) (n : Nat) (s : State) : (memRead a n s).2.lvl = s.lvl := rfl

@[simp] theorem memRead_ch (a : BitVec 5) (n : Nat) (s : State) : (memRead a n s).2.ch = s.ch := rfl

@[simp] theorem memRead_disp (a : BitVec 5) (n : Nat) (s : State) : (memRead a n s).2.disp = s.disp := rfl

@[simp] theorem memRead_ms (a : BitVec 5) (n : Nat) (s : State) : (memRead a n s).2.ms = s.ms := rfl

@[simp] theorem memRead_handler (a : BitVec 5) (n : Nat) (s : State) : (memRead a n s).2.handler = s.handler := rfl

@[simp] theorem memRead_line (a : BitVec 5) (n : Nat) (s : State) : (memRead a n s).2.line = s.line := rfl

@[simp] theorem memRead_drops (a : BitVec 5) (n : Nat) (s : State) : (memRead a n s).2.drops = s.drops := rfl

@[simp] theorem memRead_ctx (a : BitVec 5) (n : Nat) (s : State) : (memRead a n s).2.ctx = s.ctx := rfl

@[simp] theorem memRead_ret (a : BitVec 5) (n : Nat) (s : State) : (memRead a n s).2.ret = s.ret := rfl

@[simp] theorem memRead_delivered (a : BitVec 5) (n : Nat) (s : State) : (memRead a n s).2.delivered = s.delivered 
    := rfl

@[simp] theorem memRead_history (a : BitVec 5) (n : Nat) (s : State) : (memRead a n s).2.history = s.history := rfl

@[simp] theorem memRead_script (a : BitVec 5) (n : Nat) (s : State) : (memRead a n s).2.script = s.script := rfl

@[simp] theorem memWrite_params (a : BitVec 5) (n v : Nat) (s : State) : (memWrite a n v s).params = s.params := rfl

@[simp] theorem memWrite_lvl (a : BitVec 5) (n v : Nat) (s : State) : (memWrite a n v s).lvl = s.lvl := rfl

@[simp] theorem memWrite_ch (a : BitVec 5) (n v : Nat) (s : State) : (memWrite a n v s).ch = s.ch := rfl

@[simp] theorem memWrite_disp (a : BitVec 5) (n v : Nat) (s : State) : (memWrite a n v s).disp = s.disp := rfl

@[simp] theorem memWrite_ms (a : BitVec 5) (n v : Nat) (s : State) : (memWrite a n v s).ms = s.ms := rfl

@[simp] theorem memWrite_handler (a : BitVec 5) (n v : Nat) (s : State) : (memWrite a n v s).handler = s.handler 
    := rfl

@[simp] theorem memWrite_line (a : BitVec 5) (n v : Nat) (s : State) : (memWrite a n v s).line = s.line := rfl

@[simp] theorem memWrite_drops (a : BitVec 5) (n v : Nat) (s : State) : (memWrite a n v s).drops = s.drops := rfl

@[simp] theorem memWrite_ctx (a : BitVec 5) (n v : Nat) (s : State) : (memWrite a n v s).ctx = s.ctx := rfl

@[simp] theorem memWrite_ret (a : BitVec 5) (n v : Nat) (s : State) : (memWrite a n v s).ret = s.ret := rfl

@[simp] theorem memWrite_delivered (a : BitVec 5) (n v : Nat) (s : State) : (memWrite a n v s).delivered = s.delivered 
    := rfl

@[simp] theorem memWrite_history (a : BitVec 5) (n v : Nat) (s : State) : (memWrite a n v s).history = s.history 
    := rfl

@[simp] theorem memWrite_script (a : BitVec 5) (n v : Nat) (s : State) : (memWrite a n v s).script = s.script := rfl

@[simp] theorem writeParam_params (r : Reg) (v : Int) (s : State) : (writeParam r v s).params = s.params := rfl

@[simp] theorem writeParam_lvl (r : Reg) (v : Int) (s : State) : (writeParam r v s).lvl = s.lvl := rfl

@[simp] theorem writeParam_ch (r : Reg) (v : Int) (s : State) : (writeParam r v s).ch = s.ch := rfl

@[simp] theorem writeParam_disp (r : Reg) (v : Int) (s : State) : (writeParam r v s).disp = s.disp := rfl

@[simp] theorem writeParam_ms (r : Reg) (v : Int) (s : State) : (writeParam r v s).ms = s.ms := rfl

@[simp] theorem writeParam_handler (r : Reg) (v : Int) (s : State) : (writeParam r v s).handler = s.handler := rfl

@[simp] theorem writeParam_line (r : Reg) (v : Int) (s : State) : (writeParam r v s).line = s.line := rfl

@[simp] theorem writeParam_drops (r : Reg) (v : Int) (s : State) : (writeParam r v s).drops = s.drops := rfl

@[simp] theorem writeParam_ctx (r : Reg) (v : Int) (s : State) : (writeParam r v s).ctx = s.ctx := rfl

@[simp] theorem writeParam_ret (r : Reg) (v : Int) (s : State) : (writeParam r v s).ret = s.ret := rfl

@[simp] theorem writeParam_delivered (r : Reg) (v : Int) (s : State) : (writeParam r v s).delivered = s.delivered 
    := rfl

@[simp] theorem writeParam_history (r : Reg) (v : Int) (s : State) : (writeParam r v s).history = s.history := rfl

@[simp] theorem writeParam_script (r : Reg) (v : Int) (s : State) : (writeParam r v s).script = s.script := rfl

@[simp] theorem readParam_params (r : Reg) (s : State) : (readParam r s).2.params = s.params := rfl

@[simp] theorem readParam_lvl (r : Reg) (s : State) : (readParam r s).2.lvl = s.lvl := rfl

@[simp] theorem readParam_ch (r : Reg) (s : State) : (readParam r s).2.ch = s.ch := rfl

@[simp] theorem readParam_disp (r : Reg) (s : State) : (readParam r s).2.disp = s.disp := rfl

@[simp] theorem readParam_ms (r : Reg) (s : State) : (readParam r s).2.ms = s.ms := rfl

@[simp] theorem readParam_handler (r : Reg) (s : State) : (readParam r s).2.handler = s.handler := rfl

@[simp] theorem readParam_line (r : Reg) (s : State) : (readParam r s).2.line = s.line := rfl

@[simp] theorem readParam_drops (r : Reg) (s : State) : (readParam r s).2.drops = s.drops := rfl

@[simp] theorem readParam_ctx (r : Reg) (s : State) : (readParam r s).2.ctx = s.ctx := rfl

@[simp] theorem readParam_ret (r : Reg) (s : State) : (readParam r s).2.ret = s.ret := rfl

@[simp] theorem readParam_delivered (r : Reg) (s : State) : (readParam r s).2.delivered = s.delivered := rfl

@[simp] theorem readParam_history (r : Reg) (s : State) : (readParam r s).2.history = s.history := rfl

@[simp] theorem readParam_script (r : Reg) (s : State) : (readParam r s).2.script = s.script := rfl

@[simp] theorem readStatus_params (op : Byte) (s : State) : (readStatus op s).2.params = s.params := rfl

@[simp] theorem readStatus_lvl (op : Byte) (s : State) : (readStatus op s).2.lvl = s.lvl := rfl

@[simp] theorem readStatus_ch (op : Byte) (s : State) : (readStatus op s).2.ch = s.ch := rfl

@[simp] theorem readStatus_disp (op : Byte) (s : State) : (readStatus op s).2.disp = s.disp := rfl

@[simp] theorem readStatus_ms (op : Byte) (s : State) : (readStatus op s).2.ms = s.ms := rfl

@[simp] theorem readStatus_handler (op : Byte) (s : State) : (readStatus op s).2.handler = s.handler := rfl

@[simp] theorem readStatus_line (op : Byte) (s : State) : (readStatus op s).2.line = s.line := rfl

@[simp] theorem readStatus_drops (op : Byte) (s : State) : (readStatus op s).2.drops = s.drops := rfl

@[simp] theorem readStatus_ctx (op : Byte) (s : State) : (readStatus op s).2.ctx = s.ctx := rfl

@[simp] theorem readStatus_ret (op : Byte) (s : State) : (readStatus op s).2.ret = s.ret := rfl

@[simp] theorem readStatus_delivered (op : Byte) (s : State) : (readStatus op s).2.delivered = s.delivered := rfl

@[simp] theorem readStatus_history (op : Byte) (s : State) : (readStatus op s).2.history = s.history := rfl

@[simp] theorem readStatus_script (op : Byte) (s : State) : (readStatus op s).2.script = s.script := rfl

@[simp] theorem sendGoTo_params (p : Int) (s : State) : (sendGoTo p s).params = s.params := rfl

@[simp] theorem sendGoTo_lvl (p : Int) (s : State) : (sendGoTo p s).lvl = s.lvl := rfl

@[simp] theorem sendGoTo_ch (p : Int) (s : State) : (sendGoTo p s).ch = s.ch := rfl

@[simp] theorem sendGoTo_disp (p : Int) (s : State) : (sendGoTo p s).disp = s.disp := rfl

@[simp] theorem sendGoTo_ms (p : Int) (s : State) : (sendGoTo p s).ms = s.ms := rfl

@[simp] theorem sendGoTo_handler (p : Int) (s : State) : (sendGoTo p s).handler = s.handler := rfl

@[simp] theorem sendGoTo_line (p : Int) (s : State) : (sendGoTo p s).line = s.line := rfl

@[simp] theorem sendGoTo_drops (p : Int) (s : State) : (sendGoTo p s).drops = s.drops := rfl

@[simp] theorem sendGoTo_ctx (p : Int) (s : State) : (sendGoTo p s).ctx = s.ctx := rfl

@[simp] theorem sendGoTo_ret (p : Int) (s : State) : (sendGoTo p s).ret = s.ret := rfl

@[simp] theorem sendGoTo_delivered (p : Int) (s : State) : (sendGoTo p s).delivered = s.delivered := rfl

@[simp] theorem sendGoTo_history (p : Int) (s : State) : (sendGoTo p s).history = s.history := rfl

@[simp] theorem sendGoTo_script (p : Int) (s : State) : (sendGoTo p s).script = s.script := rfl

@[simp] theorem sendGoHome_params (s : State) : (sendGoHome s).params = s.params := rfl

@[simp] theorem sendGoHome_lvl (s : State) : (sendGoHome s).lvl = s.lvl := rfl

@[simp] theorem sendGoHome_ch (s : State) : (sendGoHome s).ch = s.ch := rfl

@[simp] theorem sendGoHome_disp (s : State) : (sendGoHome s).disp = s.disp := rfl

@[simp] theorem sendGoHome_ms (s : State) : (sendGoHome s).ms = s.ms := rfl

@[simp] theorem sendGoHome_handler (s : State) : (sendGoHome s).handler = s.handler := rfl

@[simp] theorem sendGoHome_line (s : State) : (sendGoHome s).line = s.line := rfl

@[simp] theorem sendGoHome_drops (s : State) : (sendGoHome s).drops = s.drops := rfl

@[simp] theorem sendGoHome_ctx (s : State) : (sendGoHome s).ctx = s.ctx := rfl

@[simp] theorem sendGoHome_ret (s : State) : (sendGoHome s).ret = s.ret := rfl

@[simp] theorem sendGoHome_delivered (s : State) : (sendGoHome s).delivered = s.delivered := rfl

@[simp] theorem sendGoHome_history (s : State) : (sendGoHome s).history = s.history := rfl

@[simp] theorem sendGoHome_script (s : State) : (sendGoHome s).script = s.script := rfl

@[simp] theorem setLevel_params (i : ButtonId) (l : Bool) (s : State) : (setLevel i l s).params = s.params := rfl

@[simp] theorem setLevel_lvl (i : ButtonId) (l : Bool) (s : State) :
    (setLevel i l s).lvl = s.lvl.set i l := rfl

@[simp] theorem setLevel_ch (i : ButtonId) (l : Bool) (s : State) : (setLevel i l s).ch = s.ch := rfl

@[simp] theorem setLevel_disp (i : ButtonId) (l : Bool) (s : State) : (setLevel i l s).disp = s.disp := rfl

@[simp] theorem setLevel_ms (i : ButtonId) (l : Bool) (s : State) : (setLevel i l s).ms = s.ms := rfl

@[simp] theorem setLevel_handler (i : ButtonId) (l : Bool) (s : State) : (setLevel i l s).handler = s.handler := rfl

@[simp] theorem setLevel_line (i : ButtonId) (l : Bool) (s : State) : (setLevel i l s).line = s.line := rfl

@[simp] theorem setLevel_chip (i : ButtonId) (l : Bool) (s : State) : (setLevel i l s).chip = s.chip := rfl

@[simp] theorem setLevel_drops (i : ButtonId) (l : Bool) (s : State) : (setLevel i l s).drops = s.drops := rfl

@[simp] theorem setLevel_ctx (i : ButtonId) (l : Bool) (s : State) : (setLevel i l s).ctx = s.ctx := rfl

@[simp] theorem setLevel_ret (i : ButtonId) (l : Bool) (s : State) : (setLevel i l s).ret = s.ret := rfl

@[simp] theorem setLevel_bus (i : ButtonId) (l : Bool) (s : State) : (setLevel i l s).bus = s.bus := rfl

@[simp] theorem setLevel_delivered (i : ButtonId) (l : Bool) (s : State) : (setLevel i l s).delivered = s.delivered 
    := rfl

@[simp] theorem setLevel_history (i : ButtonId) (l : Bool) (s : State) : (setLevel i l s).history = s.history := rfl

@[simp] theorem setLevel_script (i : ButtonId) (l : Bool) (s : State) : (setLevel i l s).script = s.script := rfl

@[simp] theorem setLevel_answers (i : ButtonId) (l : Bool) (s : State) : (setLevel i l s).answers = s.answers := rfl

@[simp] theorem setLevel_tick (i : ButtonId) (l : Bool) (s : State) : (setLevel i l s).tick = s.tick := rfl

@[simp] theorem push_params (e : Event) (s : State) : (push e s).params = s.params := by unfold push; split <;> rfl

@[simp] theorem push_lvl (e : Event) (s : State) : (push e s).lvl = s.lvl := by unfold push; split <;> rfl

@[simp] theorem push_disp (e : Event) (s : State) : (push e s).disp = s.disp := by unfold push; split <;> rfl

@[simp] theorem push_ms (e : Event) (s : State) : (push e s).ms = s.ms := by unfold push; split <;> rfl

@[simp] theorem push_handler (e : Event) (s : State) : (push e s).handler = s.handler := by unfold push; split <;> rfl

@[simp] theorem push_line (e : Event) (s : State) : (push e s).line = s.line := by unfold push; split <;> rfl

@[simp] theorem push_chip (e : Event) (s : State) : (push e s).chip = s.chip := by unfold push; split <;> rfl

@[simp] theorem push_ctx (e : Event) (s : State) : (push e s).ctx = s.ctx := by unfold push; split <;> rfl

@[simp] theorem push_ret (e : Event) (s : State) : (push e s).ret = s.ret := by unfold push; split <;> rfl

@[simp] theorem push_bus (e : Event) (s : State) : (push e s).bus = s.bus := by unfold push; split <;> rfl

@[simp] theorem push_delivered (e : Event) (s : State) : (push e s).delivered = s.delivered 
    := by unfold push; split <;> rfl

@[simp] theorem push_script (e : Event) (s : State) : (push e s).script = s.script := by unfold push; split <;> rfl

@[simp] theorem push_answers (e : Event) (s : State) : (push e s).answers = s.answers := by unfold push; split <;> rfl

@[simp] theorem push_tick (e : Event) (s : State) : (push e s).tick = s.tick := by unfold push; split <;> rfl

@[simp] theorem deliver_params (e : Event) (s : State) : (deliver e s).params = s.params := rfl

@[simp] theorem deliver_lvl (e : Event) (s : State) : (deliver e s).lvl = s.lvl := rfl

@[simp] theorem deliver_ch (e : Event) (s : State) : (deliver e s).ch = s.ch := rfl

@[simp] theorem deliver_disp (e : Event) (s : State) : (deliver e s).disp = s.disp := rfl

@[simp] theorem deliver_ms (e : Event) (s : State) : (deliver e s).ms = s.ms := rfl

@[simp] theorem deliver_handler (e : Event) (s : State) : (deliver e s).handler = s.handler := rfl

@[simp] theorem deliver_line (e : Event) (s : State) : (deliver e s).line = s.line := rfl

@[simp] theorem deliver_chip (e : Event) (s : State) : (deliver e s).chip = s.chip := rfl

@[simp] theorem deliver_drops (e : Event) (s : State) : (deliver e s).drops = s.drops := rfl

@[simp] theorem deliver_ctx (e : Event) (s : State) : (deliver e s).ctx = s.ctx := rfl

@[simp] theorem deliver_ret (e : Event) (s : State) : (deliver e s).ret = s.ret := rfl

@[simp] theorem deliver_bus (e : Event) (s : State) : (deliver e s).bus = s.bus := rfl

@[simp] theorem deliver_delivered (e : Event) (s : State) :
    (deliver e s).delivered = s.delivered ++ [e] := rfl

@[simp] theorem deliver_history (e : Event) (s : State) : (deliver e s).history = s.history := rfl

@[simp] theorem deliver_script (e : Event) (s : State) : (deliver e s).script = s.script := rfl

@[simp] theorem deliver_answers (e : Event) (s : State) : (deliver e s).answers = s.answers := rfl

@[simp] theorem deliver_tick (e : Event) (s : State) : (deliver e s).tick = s.tick := rfl

@[simp] theorem createInstance_params (k : EngineKind) (s : State) : (createInstance k s).params = s.params := rfl

@[simp] theorem createInstance_lvl (k : EngineKind) (s : State) : (createInstance k s).lvl = s.lvl := rfl

@[simp] theorem createInstance_ch (k : EngineKind) (s : State) : (createInstance k s).ch = s.ch := rfl

@[simp] theorem createInstance_disp (k : EngineKind) (s : State) : (createInstance k s).disp = s.disp := rfl

@[simp] theorem createInstance_ms (k : EngineKind) (s : State) :
    (createInstance k s).ms = s.ms ++ [⟨s.ctx, .idle, k, false⟩] := rfl

@[simp] theorem createInstance_handler (k : EngineKind) (s : State) : (createInstance k s).handler = s.handler := rfl

@[simp] theorem createInstance_line (k : EngineKind) (s : State) : (createInstance k s).line = s.line := rfl

@[simp] theorem createInstance_chip (k : EngineKind) (s : State) : (createInstance k s).chip = s.chip := rfl

@[simp] theorem createInstance_drops (k : EngineKind) (s : State) : (createInstance k s).drops = s.drops := rfl

@[simp] theorem createInstance_ctx (k : EngineKind) (s : State) : (createInstance k s).ctx = s.ctx := rfl

@[simp] theorem createInstance_ret (k : EngineKind) (s : State) : (createInstance k s).ret = s.ret := rfl

@[simp] theorem createInstance_bus (k : EngineKind) (s : State) : (createInstance k s).bus = s.bus := rfl

@[simp] theorem createInstance_delivered (k : EngineKind) (s : State) : (createInstance k s).delivered = s.delivered 
    := rfl

@[simp] theorem createInstance_history (k : EngineKind) (s : State) : (createInstance k s).history = s.history := rfl

@[simp] theorem createInstance_script (k : EngineKind) (s : State) : (createInstance k s).script = s.script := rfl

@[simp] theorem createInstance_answers (k : EngineKind) (s : State) : (createInstance k s).answers = s.answers := rfl

@[simp] theorem createInstance_tick (k : EngineKind) (s : State) : (createInstance k s).tick = s.tick := rfl

@[simp] theorem setEngineState_params (m : Context) (v : EngineState) (s : State) : (setEngineState m v s).params = s.params 
    := rfl

@[simp] theorem setEngineState_lvl (m : Context) (v : EngineState) (s : State) : (setEngineState m v s).lvl = s.lvl 
    := rfl

@[simp] theorem setEngineState_ch (m : Context) (v : EngineState) (s : State) : (setEngineState m v s).ch = s.ch 
    := rfl

@[simp] theorem setEngineState_disp (m : Context) (v : EngineState) (s : State) : (setEngineState m v s).disp = s.disp 
    := rfl

@[simp] theorem setEngineState_ms (m : Context) (v : EngineState) (s : State) :
    (setEngineState m v s).ms = s.ms.map fun x => if x.caller = m then { x with state := v } else x := rfl

@[simp] theorem setEngineState_handler (m : Context) (v : EngineState) (s : State) : (setEngineState m v s).handler = s.handler 
    := rfl

@[simp] theorem setEngineState_line (m : Context) (v : EngineState) (s : State) : (setEngineState m v s).line = s.line 
    := rfl

@[simp] theorem setEngineState_chip (m : Context) (v : EngineState) (s : State) : (setEngineState m v s).chip = s.chip 
    := rfl

@[simp] theorem setEngineState_drops (m : Context) (v : EngineState) (s : State) : (setEngineState m v s).drops = s.drops 
    := rfl

@[simp] theorem setEngineState_ctx (m : Context) (v : EngineState) (s : State) : (setEngineState m v s).ctx = s.ctx 
    := rfl

@[simp] theorem setEngineState_ret (m : Context) (v : EngineState) (s : State) : (setEngineState m v s).ret = s.ret 
    := rfl

@[simp] theorem setEngineState_bus (m : Context) (v : EngineState) (s : State) : (setEngineState m v s).bus = s.bus 
    := rfl

@[simp] theorem setEngineState_delivered (m : Context) (v : EngineState) (s : State) : (setEngineState m v s).delivered = s.delivered 
    := rfl

@[simp] theorem setEngineState_history (m : Context) (v : EngineState) (s : State) : (setEngineState m v s).history = s.history 
    := rfl

@[simp] theorem setEngineState_script (m : Context) (v : EngineState) (s : State) : (setEngineState m v s).script = s.script 
    := rfl

@[simp] theorem setEngineState_answers (m : Context) (v : EngineState) (s : State) : (setEngineState m v s).answers = s.answers 
    := rfl

@[simp] theorem setEngineState_tick (m : Context) (v : EngineState) (s : State) : (setEngineState m v s).tick = s.tick 
    := rfl

@[simp] theorem destroyInstance_params (m : Context) (s : State) : (destroyInstance m s).params = s.params := rfl

@[simp] theorem destroyInstance_lvl (m : Context) (s : State) : (destroyInstance m s).lvl = s.lvl := rfl

@[simp] theorem destroyInstance_ch (m : Context) (s : State) : (destroyInstance m s).ch = s.ch := rfl

@[simp] theorem destroyInstance_disp (m : Context) (s : State) : (destroyInstance m s).disp = s.disp := rfl

@[simp] theorem destroyInstance_ms (m : Context) (s : State) :
    (destroyInstance m s).ms = s.ms.filter fun x => x.caller != m := rfl

@[simp] theorem destroyInstance_handler (m : Context) (s : State) : (destroyInstance m s).handler = s.handler := rfl

@[simp] theorem destroyInstance_line (m : Context) (s : State) : (destroyInstance m s).line = s.line := rfl

@[simp] theorem destroyInstance_chip (m : Context) (s : State) : (destroyInstance m s).chip = s.chip := rfl

@[simp] theorem destroyInstance_drops (m : Context) (s : State) : (destroyInstance m s).drops = s.drops := rfl

@[simp] theorem destroyInstance_ctx (m : Context) (s : State) : (destroyInstance m s).ctx = s.ctx := rfl

@[simp] theorem destroyInstance_ret (m : Context) (s : State) : (destroyInstance m s).ret = s.ret := rfl

@[simp] theorem destroyInstance_bus (m : Context) (s : State) : (destroyInstance m s).bus = s.bus := rfl

@[simp] theorem destroyInstance_delivered (m : Context) (s : State) : (destroyInstance m s).delivered = s.delivered 
    := rfl

@[simp] theorem destroyInstance_history (m : Context) (s : State) : (destroyInstance m s).history = s.history := rfl

@[simp] theorem destroyInstance_script (m : Context) (s : State) : (destroyInstance m s).script = s.script := rfl

@[simp] theorem destroyInstance_answers (m : Context) (s : State) : (destroyInstance m s).answers = s.answers := rfl

@[simp] theorem destroyInstance_tick (m : Context) (s : State) : (destroyInstance m s).tick = s.tick := rfl

@[simp] theorem markStop_params (s : State) : (markStop s).params = s.params := rfl

@[simp] theorem markStop_lvl (s : State) : (markStop s).lvl = s.lvl := rfl

@[simp] theorem markStop_ch (s : State) : (markStop s).ch = s.ch := rfl

@[simp] theorem markStop_disp (s : State) : (markStop s).disp = s.disp := rfl

@[simp] theorem markStop_ms (s : State) :
    (markStop s).ms = s.ms.map markInstance := rfl

@[simp] theorem markStop_handler (s : State) : (markStop s).handler = s.handler := rfl

@[simp] theorem markStop_line (s : State) : (markStop s).line = s.line := rfl

@[simp] theorem markStop_chip (s : State) : (markStop s).chip = s.chip := rfl

@[simp] theorem markStop_drops (s : State) : (markStop s).drops = s.drops := rfl

@[simp] theorem markStop_ctx (s : State) : (markStop s).ctx = s.ctx := rfl

@[simp] theorem markStop_ret (s : State) : (markStop s).ret = s.ret := rfl

@[simp] theorem markStop_bus (s : State) : (markStop s).bus = s.bus := rfl

@[simp] theorem markStop_delivered (s : State) : (markStop s).delivered = s.delivered := rfl

@[simp] theorem markStop_history (s : State) : (markStop s).history = s.history := rfl

@[simp] theorem markStop_script (s : State) : (markStop s).script = s.script := rfl

@[simp] theorem markStop_answers (s : State) : (markStop s).answers = s.answers := rfl

@[simp] theorem markStop_tick (s : State) : (markStop s).tick = s.tick := rfl

@[simp] theorem asContext_params (c : Context) (s : State) : (asContext c s).params = s.params := rfl

@[simp] theorem asContext_lvl (c : Context) (s : State) : (asContext c s).lvl = s.lvl := rfl

@[simp] theorem asContext_ch (c : Context) (s : State) : (asContext c s).ch = s.ch := rfl

@[simp] theorem asContext_disp (c : Context) (s : State) : (asContext c s).disp = s.disp := rfl

@[simp] theorem asContext_ms (c : Context) (s : State) : (asContext c s).ms = s.ms := rfl

@[simp] theorem asContext_handler (c : Context) (s : State) : (asContext c s).handler = s.handler := rfl

@[simp] theorem asContext_line (c : Context) (s : State) : (asContext c s).line = s.line := rfl

@[simp] theorem asContext_chip (c : Context) (s : State) : (asContext c s).chip = s.chip := rfl

@[simp] theorem asContext_drops (c : Context) (s : State) : (asContext c s).drops = s.drops := rfl

@[simp] theorem asContext_ctx (c : Context) (s : State) :
    (asContext c s).ctx = c := rfl

@[simp] theorem asContext_ret (c : Context) (s : State) : (asContext c s).ret = s.ret := rfl

@[simp] theorem asContext_bus (c : Context) (s : State) : (asContext c s).bus = s.bus := rfl

@[simp] theorem asContext_delivered (c : Context) (s : State) : (asContext c s).delivered = s.delivered := rfl

@[simp] theorem asContext_history (c : Context) (s : State) : (asContext c s).history = s.history := rfl

@[simp] theorem asContext_script (c : Context) (s : State) : (asContext c s).script = s.script := rfl

@[simp] theorem asContext_answers (c : Context) (s : State) : (asContext c s).answers = s.answers := rfl

@[simp] theorem asContext_tick (c : Context) (s : State) : (asContext c s).tick = s.tick := rfl

@[simp] theorem setLine_params (i : ButtonId) (l : Bool) (s : State) : (setLine i l s).params = s.params := rfl

@[simp] theorem setLine_lvl (i : ButtonId) (l : Bool) (s : State) : (setLine i l s).lvl = s.lvl := rfl

@[simp] theorem setLine_ch (i : ButtonId) (l : Bool) (s : State) : (setLine i l s).ch = s.ch := rfl

@[simp] theorem setLine_disp (i : ButtonId) (l : Bool) (s : State) : (setLine i l s).disp = s.disp := rfl

@[simp] theorem setLine_ms (i : ButtonId) (l : Bool) (s : State) : (setLine i l s).ms = s.ms := rfl

@[simp] theorem setLine_handler (i : ButtonId) (l : Bool) (s : State) : (setLine i l s).handler = s.handler := rfl

@[simp] theorem setLine_line (i : ButtonId) (l : Bool) (s : State) :
    (setLine i l s).line = s.line.set i l := rfl

@[simp] theorem setLine_chip (i : ButtonId) (l : Bool) (s : State) : (setLine i l s).chip = s.chip := rfl

@[simp] theorem setLine_drops (i : ButtonId) (l : Bool) (s : State) : (setLine i l s).drops = s.drops := rfl

@[simp] theorem setLine_ctx (i : ButtonId) (l : Bool) (s : State) : (setLine i l s).ctx = s.ctx := rfl

@[simp] theorem setLine_ret (i : ButtonId) (l : Bool) (s : State) : (setLine i l s).ret = s.ret := rfl

@[simp] theorem setLine_bus (i : ButtonId) (l : Bool) (s : State) : (setLine i l s).bus = s.bus := rfl

@[simp] theorem setLine_delivered (i : ButtonId) (l : Bool) (s : State) : (setLine i l s).delivered = s.delivered 
    := rfl

@[simp] theorem setLine_history (i : ButtonId) (l : Bool) (s : State) : (setLine i l s).history = s.history := rfl

@[simp] theorem setLine_script (i : ButtonId) (l : Bool) (s : State) : (setLine i l s).script = s.script := rfl

@[simp] theorem setLine_answers (i : ButtonId) (l : Bool) (s : State) : (setLine i l s).answers = s.answers := rfl

@[simp] theorem setLine_tick (i : ButtonId) (l : Bool) (s : State) : (setLine i l s).tick = s.tick := rfl

@[simp] theorem afterChoice_params (s : State) : (afterChoice s).params = s.params 
    := by unfold afterChoice; split <;> rfl

@[simp] theorem afterChoice_lvl (s : State) : (afterChoice s).lvl = s.lvl := by unfold afterChoice; split <;> rfl

@[simp] theorem afterChoice_ch (s : State) : (afterChoice s).ch = s.ch := by unfold afterChoice; split <;> rfl

@[simp] theorem afterChoice_disp (s : State) : (afterChoice s).disp = s.disp := by unfold afterChoice; split <;> rfl

@[simp] theorem afterChoice_ms (s : State) : (afterChoice s).ms = s.ms := by unfold afterChoice; split <;> rfl

@[simp] theorem afterChoice_handler (s : State) : (afterChoice s).handler = s.handler 
    := by unfold afterChoice; split <;> rfl

@[simp] theorem afterChoice_line (s : State) : (afterChoice s).line = s.line := by unfold afterChoice; split <;> rfl

@[simp] theorem afterChoice_chip (s : State) : (afterChoice s).chip = s.chip := by unfold afterChoice; split <;> rfl

@[simp] theorem afterChoice_drops (s : State) : (afterChoice s).drops = s.drops 
    := by unfold afterChoice; split <;> rfl

@[simp] theorem afterChoice_ctx (s : State) : (afterChoice s).ctx = s.ctx := by unfold afterChoice; split <;> rfl

@[simp] theorem afterChoice_ret (s : State) : (afterChoice s).ret = s.ret := by unfold afterChoice; split <;> rfl

@[simp] theorem afterChoice_bus (s : State) : (afterChoice s).bus = s.bus := by unfold afterChoice; split <;> rfl

@[simp] theorem afterChoice_delivered (s : State) : (afterChoice s).delivered = s.delivered 
    := by unfold afterChoice; split <;> rfl

@[simp] theorem afterChoice_history (s : State) : (afterChoice s).history = s.history 
    := by unfold afterChoice; split <;> rfl

@[simp] theorem afterChoice_answers (s : State) : (afterChoice s).answers = s.answers 
    := by unfold afterChoice; split <;> rfl

@[simp] theorem motionComplete_params (s : State) : (motionComplete s).params = s.params 
    := by unfold motionComplete; split <;> rfl

@[simp] theorem motionComplete_lvl (s : State) : (motionComplete s).lvl = s.lvl 
    := by unfold motionComplete; split <;> rfl

@[simp] theorem motionComplete_ch (s : State) : (motionComplete s).ch = s.ch 
    := by unfold motionComplete; split <;> rfl

@[simp] theorem motionComplete_disp (s : State) : (motionComplete s).disp = s.disp 
    := by unfold motionComplete; split <;> rfl

@[simp] theorem motionComplete_ms (s : State) : (motionComplete s).ms = s.ms 
    := by unfold motionComplete; split <;> rfl

@[simp] theorem motionComplete_handler (s : State) : (motionComplete s).handler = s.handler 
    := by unfold motionComplete; split <;> rfl

@[simp] theorem motionComplete_line (s : State) : (motionComplete s).line = s.line 
    := by unfold motionComplete; split <;> rfl

@[simp] theorem motionComplete_drops (s : State) : (motionComplete s).drops = s.drops 
    := by unfold motionComplete; split <;> rfl

@[simp] theorem motionComplete_ctx (s : State) : (motionComplete s).ctx = s.ctx 
    := by unfold motionComplete; split <;> rfl

@[simp] theorem motionComplete_ret (s : State) : (motionComplete s).ret = s.ret 
    := by unfold motionComplete; split <;> rfl

@[simp] theorem motionComplete_bus (s : State) : (motionComplete s).bus = s.bus 
    := by unfold motionComplete; split <;> rfl

@[simp] theorem motionComplete_delivered (s : State) : (motionComplete s).delivered = s.delivered 
    := by unfold motionComplete; split <;> rfl

@[simp] theorem motionComplete_history (s : State) : (motionComplete s).history = s.history 
    := by unfold motionComplete; split <;> rfl

@[simp] theorem motionComplete_script (s : State) : (motionComplete s).script = s.script 
    := by unfold motionComplete; split <;> rfl

@[simp] theorem motionComplete_answers (s : State) : (motionComplete s).answers = s.answers 
    := by unfold motionComplete; split <;> rfl

@[simp] theorem motionComplete_tick (s : State) : (motionComplete s).tick = s.tick 
    := by unfold motionComplete; split <;> rfl

@[simp] theorem chipStep_params (r : RefChip) (s : State) : (chipStep r s).params = s.params 
    := by unfold chipStep; split <;> rfl

@[simp] theorem chipStep_lvl (r : RefChip) (s : State) : (chipStep r s).lvl = s.lvl 
    := by unfold chipStep; split <;> rfl

@[simp] theorem chipStep_ch (r : RefChip) (s : State) : (chipStep r s).ch = s.ch := by unfold chipStep; split <;> rfl

@[simp] theorem chipStep_disp (r : RefChip) (s : State) : (chipStep r s).disp = s.disp 
    := by unfold chipStep; split <;> rfl

@[simp] theorem chipStep_ms (r : RefChip) (s : State) : (chipStep r s).ms = s.ms := by unfold chipStep; split <;> rfl

@[simp] theorem chipStep_handler (r : RefChip) (s : State) : (chipStep r s).handler = s.handler 
    := by unfold chipStep; split <;> rfl

@[simp] theorem chipStep_line (r : RefChip) (s : State) : (chipStep r s).line = s.line 
    := by unfold chipStep; split <;> rfl

@[simp] theorem chipStep_drops (r : RefChip) (s : State) : (chipStep r s).drops = s.drops 
    := by unfold chipStep; split <;> rfl

@[simp] theorem chipStep_ctx (r : RefChip) (s : State) : (chipStep r s).ctx = s.ctx 
    := by unfold chipStep; split <;> rfl

@[simp] theorem chipStep_ret (r : RefChip) (s : State) : (chipStep r s).ret = s.ret 
    := by unfold chipStep; split <;> rfl

@[simp] theorem chipStep_bus (r : RefChip) (s : State) : (chipStep r s).bus = s.bus 
    := by unfold chipStep; split <;> rfl

@[simp] theorem chipStep_delivered (r : RefChip) (s : State) : (chipStep r s).delivered = s.delivered 
    := by unfold chipStep; split <;> rfl

@[simp] theorem chipStep_history (r : RefChip) (s : State) : (chipStep r s).history = s.history 
    := by unfold chipStep; split <;> rfl

@[simp] theorem chipStep_script (r : RefChip) (s : State) : (chipStep r s).script = s.script 
    := by unfold chipStep; split <;> rfl

@[simp] theorem chipStep_answers (r : RefChip) (s : State) : (chipStep r s).answers = s.answers 
    := by unfold chipStep; split <;> rfl

@[simp] theorem chipStep_tick (r : RefChip) (s : State) : (chipStep r s).tick = s.tick 
    := by unfold chipStep; split <;> rfl

@[simp] theorem pollRead_params (s : State) : (pollRead s).2.params = s.params := by unfold pollRead; split <;> rfl

@[simp] theorem pollRead_lvl (s : State) : (pollRead s).2.lvl = s.lvl := by unfold pollRead; split <;> rfl

@[simp] theorem pollRead_ch (s : State) : (pollRead s).2.ch = s.ch := by unfold pollRead; split <;> rfl

@[simp] theorem pollRead_disp (s : State) : (pollRead s).2.disp = s.disp := by unfold pollRead; split <;> rfl

@[simp] theorem pollRead_ms (s : State) : (pollRead s).2.ms = s.ms := by unfold pollRead; split <;> rfl

@[simp] theorem pollRead_handler (s : State) : (pollRead s).2.handler = s.handler := by unfold pollRead; split <;> rfl

@[simp] theorem pollRead_line (s : State) : (pollRead s).2.line = s.line := by unfold pollRead; split <;> rfl

@[simp] theorem pollRead_drops (s : State) : (pollRead s).2.drops = s.drops := by unfold pollRead; split <;> rfl

@[simp] theorem pollRead_ctx (s : State) : (pollRead s).2.ctx = s.ctx := by unfold pollRead; split <;> rfl

@[simp] theorem pollRead_ret (s : State) : (pollRead s).2.ret = s.ret := by unfold pollRead; split <;> rfl

@[simp] theorem pollRead_delivered (s : State) : (pollRead s).2.delivered = s.delivered 
    := by unfold pollRead; split <;> rfl

@[simp] theorem pollRead_history (s : State) : (pollRead s).2.history = s.history := by unfold pollRead; split <;> rfl

@[simp] theorem pollRead_script (s : State) : (pollRead s).2.script = s.script := by unfold pollRead; split <;> rfl

@[simp] theorem yieldFor_eq (n : Nat) (s : State) : yieldFor n s = s := rfl

end Sys2Proof.Machine
end

