-- ==== Sys2Proof/Laws/Ops.lean ====
section
/-!
SUPPORT. What each shared operation can do, said once: the gate, the pure call, the transaction, the push, and the
operations on the motion-engine instances.
-/
namespace Sys2Proof.Machine

/-! ### The gate -/

theorem gated_run {k : State → State} {s : State} (h : callGate s = .run) :
    gated k s = .next (k s) := by
  simp [gated, h]

theorem gated_blocked {k : State → State} {s : State} (h : callGate s = .blocked) :
    gated k s = .next s := by
  simp [gated, h]

theorem gated_forbidden {k : State → State} {s : State} {r : Refusal}
    (h : callGate s = .forbidden r) : gated k s = .refused r := by
  simp [gated, h]

/-- A gated call that answers a next state ran, or its caller is suspended. -/
theorem gated_next {k : State → State} {s t : State} (h : gated k s = .next t) :
    (callGate s = .run ∧ t = k s) ∨ (callGate s = .blocked ∧ t = s) := by
  unfold gated at h
  split at h <;> simp_all

/-- A pure call returns its value. -/
theorem pureCall_next {v : Value} {s t : State} (h : pureCall v s = .next t) : t = returnValue v s := by
  cases h; rfl

theorem suspended_iff (s : State) (c : Context) :
    suspended s c = true ↔ ∃ x ∈ s.ms, x.caller = c := by
  simp [suspended]

theorem not_suspended_iff (s : State) (c : Context) :
    suspended s c = false ↔ ∀ x ∈ s.ms, x.caller ≠ c := by
  simp [suspended]

/-- A running call comes from a task or from a handler, and its caller is not suspended. -/
theorem callGate_run {s : State} (h : callGate s = .run) :
    suspended s s.ctx = false ∧ s.ctx ≠ .interrupt ∧ (s.ctx = .dispatcher → s.disp ≠ .ready) := by
  unfold callGate at h
  split at h
  · cases h
  · split at h
    · cases h
    · split at h <;> simp_all
  · split at h <;> simp_all

/-! ### The transaction -/

@[simp] theorem spareBytes_length (n : Nat) (s : State) : (spareBytes n s).length = n := by
  simp [spareBytes]

theorem refBytes_length (spare response : List Byte) :
    (refBytes spare response).length = spare.length := by
  simp only [refBytes, List.length_take, List.length_append]
  omega

theorem chipAnswers_length (c : ChipConst) (chip : Chip) (spare ts : List Byte) :
    (chipAnswers c chip spare ts).length = spare.length := by
  unfold chipAnswers
  split
  · rfl
  · split
    · rfl
    · split
      · rfl
      · exact refBytes_length _ _

theorem txn_answers_length (ts : List Byte) (s : State) : (txn ts s).1.length = ts.length := by
  simp [txn, chipAnswers_length]

/-! ### The channel -/

/-- A push appends the event where there is room and discards it otherwise; a ghost entry records which. -/
theorem push_cases (e : Event) (s : State) :
    (s.ch.length < s.params.cap ∧
        push e s = { s with ch := s.ch ++ [e], history := s.history ++ [⟨e, true⟩] }) ∨
      (s.params.cap ≤ s.ch.length ∧
        push e s = { s with drops := s.drops + 1, history := s.history ++ [⟨e, false⟩] }) := by
  by_cases h : s.ch.length < s.params.cap
  · exact .inl ⟨h, by simp [push, h]⟩
  · exact .inr ⟨by omega, by simp [push, h]⟩

/-! ### The instances -/

@[simp] theorem markInstance_caller (x : Instance) : (markInstance x).caller = x.caller := by
  unfold markInstance; split <;> rfl

@[simp] theorem markInstance_state (x : Instance) : (markInstance x).state = x.state := by
  unfold markInstance; split <;> rfl

@[simp] theorem markInstance_kind (x : Instance) : (markInstance x).kind = x.kind := by
  unfold markInstance; split <;> rfl

theorem instanceOf_some {m : Context} {s : State} {x : Instance} (h : instanceOf m s = some x) :
    x ∈ s.ms ∧ x.caller = m :=
  ⟨List.mem_of_find?_eq_some h, by simpa using List.find?_some h⟩

/-- Only the instance list decides which instance a caller has. -/
theorem instanceOf_congr {m : Context} {s t : State} (h : t.ms = s.ms) :
    instanceOf m t = instanceOf m s := by
  simp [instanceOf, h]

theorem instanceOf_setEngineState_self (m : Context) (v : EngineState) (s : State) :
    instanceOf m (setEngineState m v s) =
      (instanceOf m s).map fun x => { x with state := v } := by
  unfold instanceOf setEngineState
  induction s.ms with
  | nil => rfl
  | cons x xs ih =>
    by_cases h : x.caller = m
    · simp [h]
    · simpa [h] using ih

theorem instanceOf_setEngineState_of_ne {m n : Context} (v : EngineState) (s : State)
    (h : n ≠ m) : instanceOf n (setEngineState m v s) = instanceOf n s := by
  unfold instanceOf setEngineState
  induction s.ms with
  | nil => rfl
  | cons x xs ih =>
    by_cases hx : x.caller = m
    · have hn : ¬ x.caller = n := fun e => h (e.symm.trans hx)
      simpa [hx, List.find?_cons, hn, Ne.symm h] using ih
    · by_cases hn : x.caller = n
      · simp [hn, h]
      · simpa [hx, hn] using ih

theorem instanceOf_destroy_self (m : Context) (s : State) :
    instanceOf m (destroyInstance m s) = none := by
  simp [instanceOf, destroyInstance]

theorem instanceOf_destroy_of_ne {m n : Context} (s : State) (h : n ≠ m) :
    instanceOf n (destroyInstance m s) = instanceOf n s := by
  unfold instanceOf destroyInstance
  induction s.ms with
  | nil => rfl
  | cons x xs ih =>
    by_cases hx : x.caller = m
    · have hn : ¬ x.caller = n := fun e => h (e.symm.trans hx)
      simpa [hx, List.find?_cons, hn, Ne.symm h] using ih
    · by_cases hn : x.caller = n
      · simp [hn, h]
      · simpa [hx, hn] using ih

/-- No live instance belongs to a task numbered `freshTask` or above. -/
theorem lt_freshTask {s : State} {x : Instance} {k : Nat} (hx : x ∈ s.ms) (hk : x.caller = .task k) :
    k < freshTask s := by
  unfold freshTask
  generalize s.ms = l at hx ⊢
  induction l with
  | nil => cases hx
  | cons y ys ih =>
    rw [List.foldr_cons]
    rcases List.mem_cons.mp hx with rfl | hx
    · rw [hk]; exact lt_max_of_lt_right (Nat.lt_succ_self k)
    · split
      · exact lt_max_of_lt_left (ih hx)
      · exact ih hx
      · exact ih hx

/-! ### The reference chip -/

theorem regFileWf_iff (c : ChipConst) (f : PerReg Nat) :
    regFileWf c f = true ↔ ∀ r, f.get r < 2 ^ c.width r := by
  simp only [regFileWf, List.all_eq_true, decide_eq_true_eq]
  exact ⟨fun h r => h r (Reg.mem_all r), fun h r _ => h r⟩

theorem fitRegs_get (c : ChipConst) (f : PerReg Nat) (r : Reg) :
    (fitRegs c f).get r = mask (c.width r) (f.get r : Int) := by
  cases r <;> rfl

/-- Every command keeps the register file of the reference chip within its widths. -/
theorem refReact_wf (c : ChipConst) (free : RefChip) (k : Command) (raw : Nat) (r : RefChip)
    (h : regFileWf c r.regs = true) : regFileWf c (refReact c free k raw r).regs = true := by
  have hset : ∀ q x, x < 2 ^ c.width q → regFileWf c (r.regs.set q x) = true := by
    intro q x hx
    rw [regFileWf_iff] at *
    intro q'
    by_cases e : q' = q
    · subst e; simpa using hx
    · rw [PerReg.get_set_of_ne _ _ e]; exact h q'
  cases k with
  | setParam q => exact hset q _ (mask_lt _ _)
  | resetPosition => exact hset _ _ (by positivity)
  | resetDevice =>
    rw [regFileWf_iff]
    intro q
    simp only [refReact, fitChip, fitRegs_get]
    exact mask_lt _ _
  | _ => exact h

theorem chipAfter_ok (c : ChipConst) (free : RefChip) (chip : Chip) (ts : List Byte)
    (h : chipOk c chip = true) : chipOk c (chipAfter c free chip ts) = true := by
  unfold chipAfter
  split
  · rfl
  · split
    · exact h
    · split
      · exact h
      · exact refReact_wf _ _ _ _ _ h

end Sys2Proof.Machine
end

