-- ==== Sys2Proof/Laws/Chip.lean ====
section
/-!
SUPPORT. What a status read of the reference chip gives and does (20_memory.md R67, 30_encoding.md R95, R96), said once
for the clearing and the non-clearing form, and what can change its latched bits (30_encoding.md R97).
-/
namespace Sys2Proof.Machine

/-- The spare bytes of a three-slot transaction, one by one. -/
theorem spareBytes_three (s : State) : ∃ x y z, spareBytes 3 s = [x, y, z] := ⟨_, _, _, rfl⟩

/-- Splitting a status word into its two response bytes and joining them gives it back (R95). -/
theorem statusOfBytes_split (w : BitVec 16) :
    statusOfBytes (BitVec.ofNat 8 (w.toNat / 256 ^ 1)) (BitVec.ofNat 8 (w.toNat / 256 ^ 0)) = w := by
  unfold statusOfBytes
  apply BitVec.eq_of_toNat_eq
  have := w.isLt
  simp only [BitVec.toNat_append, BitVec.toNat_ofNat]
  rw [Nat.shiftLeft_eq, Nat.mul_comm, ← Nat.two_pow_add_eq_or_of_lt] <;> omega

/-- The commands that read the status of a chip whose STATUS register takes two bytes. -/
def isStatusRead (c : ChipConst) (k : Command) : Prop :=
  k = .getStatus ∨ (k = .getParam .status ∧ c.statusWidthOk = true)

theorem refResponse_statusRead {c : ChipConst} {k : Command} (h : isStatusRead c k) (q : RefChip) :
    refResponse c q k = beBytes 2 (refStatus c.layout q).toNat := by
  obtain rfl | ⟨rfl, hw⟩ := h
  · rfl
  · have hb := of_decide_eq_true hw
    have hn : nBytes (c.width .status) = 2 := by unfold nBytes; omega
    simp [refResponse, Command.slots, Command.width, hn, refRead]

/-- A status read of the reference chip returns the snapshot of its assembled word. -/
theorem readStatus_reference {s : State} {q : RefChip} {k : Command}
    (hu : s.params.chip.unambiguous = true) (hc : s.chip = .reference q)
    (hk : isStatusRead s.params.chip k) :
    (readStatus (commandByte s.params.chip k) s).1 =
      snapshotOf s.params.chip.layout (refStatus s.params.chip.layout q) := by
  obtain ⟨x, y, z, hs⟩ := spareBytes_three s
  simp only [readStatus, txn, List.length_cons, List.length_nil, hc, chipAnswers,
    commandOf_commandByte hu, refResponse_statusRead hk, Nat.zero_add, Nat.reduceAdd, hs]
  exact congrArg (snapshotOf s.params.chip.layout) (statusOfBytes_split _)

/-- What a status read leaves in the reference chip. -/
theorem readStatus_reference_chip {s : State} {q : RefChip} (k : Command)
    (hu : s.params.chip.unambiguous = true) (hc : s.chip = .reference q) :
    (readStatus (commandByte s.params.chip k) s).2.chip =
      .reference (refReact s.params.chip (Config.freeChip s.tick) k
        (beValue [s.params.chip.dummy, s.params.chip.dummy]) q) := by
  simp only [readStatus, txn, hc, chipAfter, commandOf_commandByte hu]

theorem statusBit_self {k : Nat} (h : k < 16) : (statusBit k).getLsbD k = true := by
  simp [statusBit, h]

/-- The decoded `busy` of the assembled word is `MOVING` (R67, R95). -/
theorem refStatus_busy {l : StatusLayout} (h : l.wf = true) (q : RefChip) :
    (snapshotOf l (refStatus l q)).busy = q.moving := by
  obtain ⟨_, h2, _, _, _, _, _, h8, _⟩ := of_decide_eq_true h
  simp only [snapshotOf, refStatus, BitVec.getLsbD_or, BitVec.getLsbD_and, BitVec.getLsbD_not, h8,
    statusBit_self h2]
  cases q.moving <;> cases l.activeLow.getLsbD l.busyBit <;> simp [statusBit_self h2]

/-- A bit of the assembled word that is neither latched nor BUSY is the live bit (R67). -/
theorem refStatus_live {l : StatusLayout} {k : Nat} (hk : k < 16) (hl : l.latched.getLsbD k = false)
    (hb : k ≠ l.busyBit) (q : RefChip) : (refStatus l q).getLsbD k = q.live.getLsbD k := by
  have h0 : (statusBit l.busyBit).getLsbD k = false := by
    simp only [statusBit, BitVec.getLsbD_shiftLeft, BitVec.getLsbD_one]
    by_cases h : k < l.busyBit
    · simp [h]
    · have : k - l.busyBit ≠ 0 := by omega
      simp [this]
  simp only [refStatus, BitVec.getLsbD_or, BitVec.getLsbD_and, BitVec.getLsbD_not, hl, h0, hk]
  split <;> simp [h0]

/-! ### The latched bits -/

/-- Events inside the chip set latched bits and clear none (R97). -/
theorem raiseLatch_active {l : StatusLayout} {k : Nat} (old new : BitVec 16) (h : l.latched.getLsbD k = true) :
    ((raiseLatch l old new).getLsbD k != l.activeLow.getLsbD k) =
      ((old.getLsbD k != l.activeLow.getLsbD k) || (new.getLsbD k != l.activeLow.getLsbD k)) := by
  simp only [raiseLatch, inactiveLatch, BitVec.getLsbD_xor, BitVec.getLsbD_or, BitVec.getLsbD_and, h]
  cases old.getLsbD k <;> cases new.getLsbD k <;> cases l.activeLow.getLsbD k <;> rfl

/-- Of the commands, only the clearing read and RESET_DEVICE touch LATCH (R67). -/
theorem refReact_latch (c : ChipConst) (free : RefChip) {k : Command} (raw : Nat) (q : RefChip)
    (h1 : k ≠ .getStatus) (h2 : k ≠ .resetDevice) : (refReact c free k raw q).latch = q.latch := by
  cases k <;> first | rfl | exact absurd rfl h1 | exact absurd rfl h2

/-- A transaction leaves LATCH alone unless it carries one of those two commands. -/
theorem chipAfter_latch {c : ChipConst} {free q r : RefChip} {ts : List Byte}
    (h : chipAfter c free (.reference q) ts = .reference r) :
    r.latch = q.latch ∨ ∃ op payload k, ts = op :: payload ∧ commandOf c op = .ok k ∧
      (k = .getStatus ∨ k = .resetDevice) := by
  unfold chipAfter at h
  simp only at h
  split at h
  · cases h; exact .inl rfl
  · next op payload =>
    split at h
    · cases h; exact .inl rfl
    · next k hk =>
      cases h
      by_cases h1 : k = .getStatus
      · exact .inr ⟨_, _, k, rfl, hk, .inl h1⟩
      · by_cases h2 : k = .resetDevice
        · exact .inr ⟨_, _, k, rfl, hk, .inr h2⟩
        · exact .inl (refReact_latch c free _ q h1 h2)

end Sys2Proof.Machine
end

