-- ==== Sys2Proof/Laws/Exec.lean ====
section
/-!
SUPPORT. What an instruction and a step can do, said once: if exec, or the step, answers a next state, then one of the
listed effects took place. Every invariant is proved from these lists.
-/
namespace Sys2Proof.Machine

/-- The effects of an instruction. -/
inductive ExecEffect (i : Instr) (s : State) : State → Prop
  /-- Nothing: suppressed, not enabled, or the caller is suspended. -/
  | nothing : ExecEffect i s s
  /-- A pure value is handed back. -/
  | pureValue (v : Value) (h : i.call = none) : ExecEffect i s (returnValue v s)
  /-- One transaction of a command that is not stop-class, and a return. -/
  | sent (ts : List Byte) (v : Value) (k : Command) (x : Int) (hts : ts ≠ [])
      (hk : i.call = some (k, x)) (hs : isStop k = false) (hg : callGate s = .run) :
      ExecEffect i s (returnValue v (txn ts s).2)
  /-- The transaction of a stop-class command, which the live instances see. -/
  | stopped (op : Byte) (k : Command) (x : Int) (hk : i.call = some (k, x))
      (hs : isStop k = true) (hg : callGate s = .run) :
      ExecEffect i s (returnValue .nothing (markStop (txn [op] s).2))
  /-- A helper creates the instance of its caller. -/
  | created (k : EngineKind) (h : i.call = none) (hg : callGate s = .run) :
      ExecEffect i s (createInstance k s)
  /-- An accepted fire. -/
  | accepted (b : ButtonId) (l : Bool) (hi : i = .edge b l) (hc : s.ctx = .interrupt)
      (hh : s.handler ≠ none) (hl : l ≠ s.lvl.get b) :
      ExecEffect i s (push ⟨b, l⟩ (setLevel b l s))
  /-- A delivery. -/
  | popped (e : Event) (rest : List Event) (hi : i = .pop) (hc : s.ctx = .dispatcher)
      (hh : s.handler ≠ none) (hd : s.disp = .ready) (hch : s.ch = e :: rest) :
      ExecEffect i s (deliver e { s with ch := rest, disp := .inHandler e })
  /-- The end of a handler call. -/
  | returned (hi : i = .handlerReturn) (hc : s.ctx = .dispatcher)
      (hs : suspended s .dispatcher = false) : ExecEffect i s { s with disp := .ready }
  /-- The construction. -/
  | constructed (n h : Nat) (hi : i = .registerHandler h) (hc : s.ctx = .task n)
      (hh : s.handler = none) :
      ExecEffect i s { s with
        lvl := ⟨false, false, false, false⟩, ch := [], disp := .ready, handler := some h,
        drops := 0, delivered := [], history := [] }

/-- A gated body that makes one transaction of a command that is not stop-class. -/
theorem sent_effect {i : Instr} {s t : State} {k : State → State} {c : Command} {x : Int}
    (h : gated k s = .next t) (hk : i.call = some (c, x)) (hs : isStop c = false)
    (hb : ∃ ts v, ts ≠ [] ∧ k s = returnValue v (txn ts s).2) : ExecEffect i s t := by
  obtain ⟨ts, v, hts, hb⟩ := hb
  rcases gated_next h with ⟨hg, rfl⟩ | ⟨_, rfl⟩
  · rw [hb]; exact .sent ts v c x hts hk hs hg
  · exact .nothing

/-- A gated body that makes the transaction of a stop-class command. -/
theorem stopped_effect {i : Instr} {s t : State} {k : State → State} {c : Command} {x : Int}
    (h : gated k s = .next t) (hk : i.call = some (c, x)) (hs : isStop c = true)
    (hb : ∃ op, k s = returnValue .nothing (markStop (txn [op] s).2)) : ExecEffect i s t := by
  obtain ⟨op, hb⟩ := hb
  rcases gated_next h with ⟨hg, rfl⟩ | ⟨_, rfl⟩
  · rw [hb]; exact .stopped op c x hk hs hg
  · exact .nothing

theorem created_effect {i : Instr} {s t : State} {k : EngineKind}
    (h : gated (createInstance k) s = .next t) (hi : i.call = none) : ExecEffect i s t := by
  rcases gated_next h with ⟨hg, rfl⟩ | ⟨_, rfl⟩
  · exact .created k hi hg
  · exact .nothing

theorem pure_effect {i : Instr} {s t : State} {v : Value} (h : pureCall v s = .next t)
    (hi : i.call = none) : ExecEffect i s t := by
  cases pureCall_next h
  exact .pureValue v hi

theorem execEdge_effect {b : ButtonId} {l : Bool} {s t : State} (h : execEdge b l s = .next t) :
    ExecEffect (.edge b l) s t := by
  unfold execEdge at h
  split at h
  · cases h
  · cases h
  · next hc =>
    split at h
    · cases h
    · next hh =>
      split at h
      · cases h; exact .nothing
      · next hl => cases h; exact .accepted b l rfl hc (by simp [hh]) hl

theorem execPop_effect {s t : State} (h : execPop s = .next t) : ExecEffect .pop s t := by
  unfold execPop at h
  split at h
  · cases h
  · cases h
  · next hc =>
    split at h
    · cases h
    · next hh =>
      split at h
      · next e rest hd hch => cases h; exact .popped e rest rfl hc (by simp [hh]) hd hch
      · cases h; exact .nothing
      · cases h; exact .nothing

theorem execHandlerReturn_effect {s t : State} (h : execHandlerReturn s = .next t) :
    ExecEffect .handlerReturn s t := by
  unfold execHandlerReturn at h
  split at h
  · cases h
  · cases h
  · next hc =>
    split at h
    · cases h; exact .nothing
    · split at h
      · cases h; exact .nothing
      · next hs => cases h; exact .returned rfl hc (by simpa using hs)

theorem execRegisterHandler_effect {n : Nat} {s t : State}
    (h : execRegisterHandler n s = .next t) : ExecEffect (.registerHandler n) s t := by
  unfold execRegisterHandler at h
  split at h
  · cases h
  · cases h
  · next k hc =>
    split at h
    · cases h
    · next hh =>
      split at h
      · cases h; exact .nothing
      · cases h; exact .constructed k n rfl hc hh

/-- If an instruction answers a next state, one of the effects took place. -/
theorem exec_effect {i : Instr} {s t : State} (h : exec i s = .next t) : ExecEffect i s t := by
  cases i with
  | edge b l => exact execEdge_effect h
  | pop => exact execPop_effect h
  | handlerReturn => exact execHandlerReturn_effect h
  | registerHandler n => exact execRegisterHandler_effect h
  | calculateSpeed v => exact pure_effect h rfl
  | parseSpeed v => exact pure_effect h rfl
  | calculateAcceleration v => exact pure_effect h rfl
  | parseAcceleration v => exact pure_effect h rfl
  | calculateDeceleration v => exact pure_effect h rfl
  | parseDeceleration v => exact pure_effect h rfl
  | calculateMaxSpeed v => exact pure_effect h rfl
  | parseMaxSpeed v => exact pure_effect h rfl
  | calculateMinSpeed v => exact pure_effect h rfl
  | parseMinSpeed v => exact pure_effect h rfl
  | calculateFsSpd v => exact pure_effect h rfl
  | parseFsSpd v => exact pure_effect h rfl
  | wait => exact created_effect h rfl
  | approachHome => exact created_effect h rfl
  | approachTarget p => exact created_effect h rfl
  | softStop =>
    rw [exec, execSoftStop] at h
    exact stopped_effect h rfl rfl ⟨_, rfl⟩
  | hardStop =>
    rw [exec, execHardStop] at h
    exact stopped_effect h rfl rfl ⟨_, rfl⟩
  | softHiz =>
    rw [exec, execSoftHiz] at h
    exact stopped_effect h rfl rfl ⟨_, rfl⟩
  | hardHiz =>
    rw [exec, execHardHiz] at h
    exact stopped_effect h rfl rfl ⟨_, rfl⟩
  | run d v =>
    rw [exec, execRun] at h
    exact sent_effect h rfl rfl ⟨_, _, List.cons_ne_nil _ _, rfl⟩
  | move d v =>
    rw [exec, execMove] at h
    exact sent_effect h rfl rfl ⟨_, _, List.cons_ne_nil _ _, rfl⟩
  | goTo v =>
    rw [exec, execGoTo] at h
    exact sent_effect h rfl rfl ⟨_, _, List.cons_ne_nil _ _, rfl⟩
  | goToDir d v =>
    rw [exec, execGoToDir] at h
    exact sent_effect h rfl rfl ⟨_, _, List.cons_ne_nil _ _, rfl⟩
  | goHome =>
    rw [exec, execGoHome] at h
    exact sent_effect h rfl rfl ⟨_, _, List.cons_ne_nil _ _, rfl⟩
  | goMark =>
    rw [exec, execGoMark] at h
    exact sent_effect h rfl rfl ⟨_, _, List.cons_ne_nil _ _, rfl⟩
  | resetPosition =>
    rw [exec, execResetPosition] at h
    exact sent_effect h rfl rfl ⟨_, _, List.cons_ne_nil _ _, rfl⟩
  | resetDevice =>
    rw [exec, execResetDevice] at h
    exact sent_effect h rfl rfl ⟨_, _, List.cons_ne_nil _ _, rfl⟩
  | getStatus =>
    rw [exec, execGetStatus] at h
    exact sent_effect h rfl rfl ⟨_, _, List.cons_ne_nil _ _, rfl⟩
  | getStepMode =>
    rw [exec, execGetStepMode] at h
    exact sent_effect h rfl rfl ⟨_, _, List.cons_ne_nil _ _, rfl⟩
  | getStatusNc =>
    rw [exec, execGetStatusNc] at h
    exact sent_effect h rfl rfl ⟨_, _, List.cons_ne_nil _ _, rfl⟩
  | _ => exact sent_effect h rfl rfl ⟨_, _, List.cons_ne_nil _ _, rfl⟩

/-- The effects of a step that is no instruction. -/
inductive AgentEffect (s : State) : State → Prop
  | nothing : AgentEffect s s
  /-- SEEK of a maneuver. -/
  | sought (m : Context) (x : Instance) (ts : List Byte) (hx : instanceOf m s = some x)
      (hi : x.state = .idle) (hk : x.kind ≠ .wait) (hts : ts ≠ []) :
      AgentEffect s (txn ts (setEngineState m .seeking s)).2
  /-- ENTER_WAIT. -/
  | entered (m : Context) (x : Instance) (hx : instanceOf m s = some x) :
      AgentEffect s (setEngineState m .waiting s)
  /-- A poll that read busy. -/
  | polledBusy (ts : List Byte) (hts : ts ≠ []) : AgentEffect s (txn ts s).2
  /-- A poll that ended the wait. -/
  | polledEnd (m : Context) (x : Instance) (ts : List Byte) (hx : instanceOf m s = some x)
      (hw : x.state = .waiting) (hts : ts ≠ []) :
      AgentEffect s (setEngineState m (if x.stopSeen then .aborted else .done) (txn ts s).2)
  /-- RETURN. -/
  | resumed (m : Context) (x : Instance) (hx : instanceOf m s = some x) :
      AgentEffect s (returnValue .nothing (destroyInstance m s))
  | lineSet (i : ButtonId) (l : Bool) : AgentEffect s (setLine i l s)
  | motionEnded : AgentEffect s (motionComplete s)
  | chipStepped (r : RefChip) : AgentEffect s (chipStep r s)

theorem seekStep_effect (m : Context) (s : State) : AgentEffect s (seekStep m s) := by
  unfold seekStep
  split
  · next hx => exact .sought m _ _ hx rfl (by simp) (List.cons_ne_nil _ _)
  · next hx => exact .sought m _ _ hx rfl (by simp) (List.cons_ne_nil _ _)
  all_goals exact .nothing

theorem enterWaitStep_effect (m : Context) (s : State) : AgentEffect s (enterWaitStep m s) := by
  unfold enterWaitStep
  split
  · next hx => exact .entered m _ hx
  · next hx => exact .entered m _ hx
  all_goals exact .nothing

/-- A poll reads the status with one transaction. -/
theorem pollRead_txn (s : State) : ∃ ts, ts ≠ [] ∧ (pollRead s).2 = (txn ts s).2 := by
  unfold pollRead
  split
  · exact ⟨_, List.cons_ne_nil _ _, rfl⟩
  · exact ⟨_, List.cons_ne_nil _ _, rfl⟩

theorem pollStep_effect (m : Context) (s : State) : AgentEffect s (pollStep m s) := by
  obtain ⟨ts, hts, hr⟩ := pollRead_txn s
  unfold pollStep
  split
  · next hx =>
    split
    · rw [yieldFor_eq, hr]; exact .polledBusy ts hts
    · rw [hr]; exact .polledEnd m _ ts hx rfl hts
  all_goals exact .nothing

theorem resumeStep_effect (m : Context) (s : State) : AgentEffect s (resumeStep m s) := by
  unfold resumeStep
  split
  · next hx => exact .resumed m _ hx
  · next hx => exact .resumed m _ hx
  all_goals exact .nothing

/-! ### Conversions -/

/-- A conversion hands back a value that depends on the parameters alone, in every state (00_scope.md R16). -/
theorem exec_conversion {i : Instr} (h : isConversion i = true) :
    ∃ f : Params → Value, ∀ s, exec i s = .next (returnValue (f s.params) s) := by
  cases i with
  | calculateSpeed v => exact ⟨fun p => .int (calculate p.conv.speed v), fun _ => rfl⟩
  | parseSpeed t => exact ⟨fun p => .phys (parse p.conv.speed t), fun _ => rfl⟩
  | calculateAcceleration v => exact ⟨fun p => .int (calculate p.conv.acceleration v), fun _ => rfl⟩
  | parseAcceleration t => exact ⟨fun p => .phys (parse p.conv.acceleration t), fun _ => rfl⟩
  | calculateDeceleration v => exact ⟨fun p => .int (calculate p.conv.deceleration v), fun _ => rfl⟩
  | parseDeceleration t => exact ⟨fun p => .phys (parse p.conv.deceleration t), fun _ => rfl⟩
  | calculateMaxSpeed v => exact ⟨fun p => .int (calculate p.conv.maximumSpeed v), fun _ => rfl⟩
  | parseMaxSpeed t => exact ⟨fun p => .phys (parse p.conv.maximumSpeed t), fun _ => rfl⟩
  | calculateMinSpeed v => exact ⟨fun p => .int (calculate p.conv.minimumSpeed v), fun _ => rfl⟩
  | parseMinSpeed t => exact ⟨fun p => .phys (parse p.conv.minimumSpeed t), fun _ => rfl⟩
  | calculateFsSpd v => exact ⟨fun p => .int (calculate p.conv.fullStepSpeed v), fun _ => rfl⟩
  | parseFsSpd t => exact ⟨fun p => .phys (parse p.conv.fullStepSpeed t), fun _ => rfl⟩
  | _ => cases h

/-- Evaluating a conversion hands its value to the caller and changes nothing else. -/
theorem evaluate_eq {i : Instr} (h : isConversion i = true) :
    ∃ f : Params → Value, ∀ c s, evaluate c i s = { s with ret := some ⟨c, f s.params⟩ } := by
  obtain ⟨f, hf⟩ := exec_conversion h
  exact ⟨f, fun c s => by simp only [evaluate, hf]; rfl⟩

theorem conversionOf_some {a : Action} {c : Context} {i : Instr} (h : conversionOf a = some (c, i)) :
    a = .op c i ∧ isConversion i = true := by
  unfold conversionOf at h
  split at h
  · split at h
    · next hi => cases h; exact ⟨rfl, hi⟩
    · cases h
  all_goals cases h

/-- Evaluating conversions changes what was last handed back and the schedule, nothing else. -/
theorem evaluateConversions_eq (as : List Action) (s : State) :
    ∃ r rest, evaluateConversions as s = { s with ret := r, script := rest } := by
  induction as generalizing s with
  | nil => exact ⟨_, _, rfl⟩
  | cons a as ih =>
    unfold evaluateConversions
    split
    · next c i h =>
      obtain ⟨f, hf⟩ := evaluate_eq (conversionOf_some h).2
      rw [hf]
      obtain ⟨r, rest, h⟩ := ih { s with ret := some ⟨c, f s.params⟩ }
      exact ⟨r, rest, h⟩
    · exact ⟨_, _, rfl⟩

/-- The schedule to evaluate is the argument's, whatever the state holds. -/
theorem evaluateConversions_script (as rest : List Action) (s : State) :
    evaluateConversions as { s with script := rest } = evaluateConversions as s := by
  induction as generalizing s with
  | nil => rfl
  | cons a as ih =>
    unfold evaluateConversions
    split
    · next c i h =>
      obtain ⟨f, hf⟩ := evaluate_eq (conversionOf_some h).2
      rw [hf, hf]
      exact ih { s with ret := some ⟨c, f s.params⟩ }
    · rfl

/-- Where the first action is no conversion, nothing is evaluated. -/
theorem beforeStep_of_step {s : State} {a : Action} {rest : List Action} (hs : s.script = a :: rest)
    (ha : conversionOf a = none) : beforeStep s = s := by
  unfold beforeStep
  rw [hs]
  simp only [evaluateConversions, ha, ← hs]

/-- Where nothing is laid down, nothing is evaluated. -/
theorem beforeStep_of_nil {s : State} (hs : s.script = []) : beforeStep s = s := by
  unfold beforeStep
  rw [hs]
  simp only [evaluateConversions, ← hs]

/-- A conversion laid down first is evaluated on the way to the step after it. -/
theorem beforeStep_of_conversion {s : State} {c : Context} {i : Instr} {rest : List Action}
    (hs : s.script = .op c i :: rest) (hi : isConversion i = true) :
    beforeStep s = beforeStep { evaluate c i s with script := rest } := by
  unfold beforeStep
  rw [hs]
  simp only [evaluateConversions, conversionOf, hi, if_true]
  exact (evaluateConversions_script rest rest (evaluate c i s)).symm

/-- If the step answers a next state, then after the choice either an instruction of some context, or a step of an
instance or of the environment, took place. -/
theorem step_effect {s t : State} (h : step s = .next t) :
    (∃ c i, ExecEffect i (asContext c (afterChoice (beforeStep s))) t) ∨
      (∃ c, AgentEffect (asContext c (afterChoice (beforeStep s))) t) := by
  unfold step runAction at h
  generalize beforeStep s = s at h ⊢
  split at h
  · split at h
    · cases h; exact .inr ⟨(afterChoice s).ctx, .nothing⟩
    · exact .inl ⟨_, _, exec_effect h⟩
  · split at h
    · exact .inl ⟨_, _, exec_effect h⟩
    · cases h
  · exact .inl ⟨_, _, exec_effect h⟩
  · cases h; exact .inr ⟨_, seekStep_effect _ _⟩
  · cases h; exact .inr ⟨_, enterWaitStep_effect _ _⟩
  · cases h; exact .inr ⟨_, pollStep_effect _ _⟩
  · cases h; exact .inr ⟨_, resumeStep_effect _ _⟩
  · cases h
    exact .inr ⟨(afterChoice s).ctx, .lineSet _ _⟩
  · cases h
    exact .inr ⟨(afterChoice s).ctx, .motionEnded⟩
  · cases h
    exact .inr ⟨(afterChoice s).ctx, .chipStepped _⟩

end Sys2Proof.Machine
end

