-- ==== Sys2Proof/Laws/PerInstr.lean ====
section
/-!
SUPPORT. A fact about every instruction as syntax: what the first byte of its transaction is, and that an operation
without a transaction of its own has no bytes (30_encoding.md R80, and the heading of that file).
-/
namespace Sys2Proof.Laws.FrameShape

/-- The encoding of an instruction begins with the opcode byte of its command; where it has no command it has no
encoding. -/
def Statement (i : Instr) : Prop :=
  ∀ c : ChipConst, (encode c i).map (·.head?) = i.call.map fun q => some (commandByte c q.1)

theorem setParam (reg : Reg) (v : Int) : Statement (.setParam reg v) := fun _ => rfl
theorem getParam (reg : Reg) : Statement (.getParam reg) := fun _ => rfl
theorem run (dir : Direction) (rate : Int) : Statement (.run dir rate) := fun _ => rfl
theorem move (dir : Direction) (count : Int) : Statement (.move dir count) := fun _ => rfl
theorem goTo (pos : Int) : Statement (.goTo pos) := fun _ => rfl
theorem goToDir (dir : Direction) (pos : Int) : Statement (.goToDir dir pos) := fun _ => rfl
theorem goHome : Statement .goHome := fun _ => rfl
theorem goMark : Statement .goMark := fun _ => rfl
theorem resetPosition : Statement .resetPosition := fun _ => rfl
theorem resetDevice : Statement .resetDevice := fun _ => rfl
theorem softStop : Statement .softStop := fun _ => rfl
theorem hardStop : Statement .hardStop := fun _ => rfl
theorem softHiz : Statement .softHiz := fun _ => rfl
theorem hardHiz : Statement .hardHiz := fun _ => rfl
theorem getStatus : Statement .getStatus := fun _ => rfl
theorem setAbsPos (v : Int) : Statement (.setAbsPos v) := fun _ => rfl
theorem getAbsPos : Statement .getAbsPos := fun _ => rfl
theorem setMark (v : Int) : Statement (.setMark v) := fun _ => rfl
theorem getMark : Statement .getMark := fun _ => rfl
theorem setSpeed (t : Int) : Statement (.setSpeed t) := fun _ => rfl
theorem getSpeed : Statement .getSpeed := fun _ => rfl
theorem setAcc (t : Int) : Statement (.setAcc t) := fun _ => rfl
theorem getAcc : Statement .getAcc := fun _ => rfl
theorem setDec (t : Int) : Statement (.setDec t) := fun _ => rfl
theorem getDec : Statement .getDec := fun _ => rfl
theorem setMaxSpeed (t : Int) : Statement (.setMaxSpeed t) := fun _ => rfl
theorem getMaxSpeed : Statement .getMaxSpeed := fun _ => rfl
theorem setMinSpeed (t : Int) : Statement (.setMinSpeed t) := fun _ => rfl
theorem getMinSpeed : Statement .getMinSpeed := fun _ => rfl
theorem setFsSpd (t : Int) : Statement (.setFsSpd t) := fun _ => rfl
theorem getFsSpd : Statement .getFsSpd := fun _ => rfl
theorem setStepMode (d : StepMode) : Statement (.setStepMode d) := fun _ => rfl
theorem getStepMode : Statement .getStepMode := fun _ => rfl
theorem setStatus (v : Int) : Statement (.setStatus v) := fun _ => rfl
theorem getStatusNc : Statement .getStatusNc := fun _ => rfl
theorem edge (id : ButtonId) (level : Bool) : Statement (.edge id level) := fun _ => rfl
theorem pop : Statement .pop := fun _ => rfl
theorem handlerReturn : Statement .handlerReturn := fun _ => rfl
theorem registerHandler (h : Nat) : Statement (.registerHandler h) := fun _ => rfl
theorem calculateSpeed (v : Rat) : Statement (.calculateSpeed v) := fun _ => rfl
theorem parseSpeed (t : Int) : Statement (.parseSpeed t) := fun _ => rfl
theorem calculateAcceleration (v : Rat) : Statement (.calculateAcceleration v) := fun _ => rfl
theorem parseAcceleration (t : Int) : Statement (.parseAcceleration t) := fun _ => rfl
theorem calculateDeceleration (v : Rat) : Statement (.calculateDeceleration v) := fun _ => rfl
theorem parseDeceleration (t : Int) : Statement (.parseDeceleration t) := fun _ => rfl
theorem calculateMaxSpeed (v : Rat) : Statement (.calculateMaxSpeed v) := fun _ => rfl
theorem parseMaxSpeed (t : Int) : Statement (.parseMaxSpeed t) := fun _ => rfl
theorem calculateMinSpeed (v : Rat) : Statement (.calculateMinSpeed v) := fun _ => rfl
theorem parseMinSpeed (t : Int) : Statement (.parseMinSpeed t) := fun _ => rfl
theorem calculateFsSpd (v : Rat) : Statement (.calculateFsSpd v) := fun _ => rfl
theorem parseFsSpd (t : Int) : Statement (.parseFsSpd t) := fun _ => rfl
theorem wait : Statement .wait := fun _ => rfl
theorem approachHome : Statement .approachHome := fun _ => rfl
theorem approachTarget (pos : Int) : Statement (.approachTarget pos) := fun _ => rfl

end Sys2Proof.Laws.FrameShape
end

