-- ==== Sys2Proof/Tests/Slice0.lean ====
section
/-!
SUPPORT. Tests of single steps against 95_test_vectors.md and the examples of the rules, decodings of words written
out from 30_encoding.md, refusals of ill-formed terms, and for every statement with hypotheses a witness that meets
them.
-/
namespace Sys2Proof.Tests
open Sys2Proof.Machine

-- One theorem at a time: a kernel evaluation waits for the declarations before it, each in a thread of its own.
set_option Elab.async false

/-! ### Helpers -/

/-- The reset state with the chip's next bytes laid down, one per slot. -/
def answering (bs : List Byte) : State := { State.reset with answers := bs }

/-- The state after an instruction, if it answers one. -/
def after (i : Instr) (s : State) : Option State :=
  match exec i s with
  | .next t => some t
  | .fault _ => none
  | .refused _ => none

/-- The bytes a task sends with an instruction. -/
def sent (i : Instr) : Option (List Byte) :=
  (after i State.reset).bind fun t => t.bus.getLast?.map (·.tx)

/-- What an instruction returns to a task if the chip sends these bytes. -/
def returned (i : Instr) (bs : List Byte) : Option Value :=
  (after i (answering bs)).bind fun t => t.ret.map (·.value)

/-- A state in interrupt context with these levels and this channel. -/
def inInterrupt (lvl : PerButton Bool) (ch : List Event) : State :=
  { State.reset with ctx := .interrupt, lvl := lvl, ch := ch }

/-- A state of the Dispatcher task. -/
def inDispatcher (disp : Disp) (ch : List Event) : State :=
  { State.reset with ctx := .dispatcher, disp := disp, ch := ch }

/-- A state with one instance of task 0, and the chip's next bytes. -/
def withInstance (e : EngineState) (k : EngineKind) (stop : Bool) (bs : List Byte) : State :=
  { State.reset with ms := [⟨.task 0, e, k, stop⟩], answers := bs }

/-- A channel of sixteen events. -/
def full : List Event := List.replicate 16 ⟨.cw, true⟩

/-- All four entries released. -/
def low : PerButton Bool := ⟨false, false, false, false⟩

/-- A reference chip at rest with its undervoltage flag latched (V26): HiZ set, every other flag inactive. -/
def restChip : RefChip := ⟨⟨5, 6, 7, 8, 9, 10, 11, 12, 3, 0⟩, 0x7C00#16, 0x0001#16, false⟩

/-- The same chip while it moves. -/
def movingChip : RefChip := { restChip with moving := true }

/-- A task's state with a reference chip. -/
def onChip (r : RefChip) : State := { State.reset with chip := .reference r }

/-! ### Ill-formed terms -/

theorem test_wf_unsigned_over : Instr.wf referenceChip (.run .forward 0x100000) = false := by decide
theorem test_wf_unsigned_negative : Instr.wf referenceChip (.move .forward (-1)) = false := by decide
theorem test_wf_signed_over : Instr.wf referenceChip (.goTo 0x200000) = false := by decide
theorem test_wf_signed_under : Instr.wf referenceChip (.goToDir .reverse (-0x200001)) = false := by decide
theorem test_wf_register_over : Instr.wf referenceChip (.setParam .maximumSpeed 1024) = false ∧
    Instr.wf referenceChip (.setAcc 0x1000) = false ∧ Instr.wf referenceChip (.setMinSpeed 0x2000) = false := by
  decide
theorem test_wf_per_register : Instr.wf referenceChip (.setAbsPos 0x200000) = false ∧
    Instr.wf referenceChip (.setMark (-0x200001)) = false ∧ Instr.wf referenceChip (.setSpeed (-1)) = false ∧
    Instr.wf referenceChip (.setDec 0x1000) = false ∧ Instr.wf referenceChip (.setMaxSpeed 0x400) = false ∧
    Instr.wf referenceChip (.setFsSpd 0x400) = false ∧ Instr.wf referenceChip (.setStatus 0x10000) = false ∧
    Instr.wf referenceChip (.approachTarget 0x400005) = false := by decide
theorem test_wf_step_mode_narrow : Instr.wf
    { referenceChip with regs := { referenceRegs with stepMode := ⟨0x16#5, 2, false⟩ } }
    (.setStepMode .m1) = false := by decide
theorem test_wf_accepts_boundaries : Instr.wf referenceChip (.goTo (-0x200000)) = true ∧
    Instr.wf referenceChip (.goTo 0x1FFFFF) = true ∧ Instr.wf referenceChip (.run .reverse 1048575) = true := by
  decide
theorem test_wf_width_zero : ChipConst.widthsOk
    { referenceChip with regs := { referenceRegs with mark := ⟨0x03#5, 0, true⟩ } } = false := by decide
theorem test_wf_width_over_32 : ChipConst.widthsOk
    { referenceChip with regs := { referenceRegs with mark := ⟨0x03#5, 33, true⟩ } } = false := by decide
theorem test_wf_status_width : ChipConst.statusWidthOk
    { referenceChip with regs := { referenceRegs with status := ⟨0x19#5, 8, false⟩ } } = false := by decide
theorem test_wf_layout_latched_busy : StatusLayout.wf { referenceLayout with latched := 0x0002#16 } = false := by
  decide
theorem test_wf_layout_bits_equal : StatusLayout.wf { referenceLayout with hizBit := 1 } = false := by decide
theorem test_wf_layout_bit_outside : StatusLayout.wf { referenceLayout with dirBit := 16 } = false := by decide
theorem test_wf_go_to_opcode : ChipConst.wf { referenceChip with opcGoTo := 0x61#8 } = false := by decide
theorem test_wf_direction_bit_outside : ChipConst.wf { referenceChip with dirBitPos := 8 } = false := by decide
theorem test_wf_scale_zero : ConvConst.wf ⟨0, 0, 0, 1⟩ = false := by decide
theorem test_wf_bounds_crossed : ConvConst.wf ⟨1, 0, 2, 1⟩ = false := by decide
theorem test_wf_capacity_zero : Params.wf { referenceParams with cap := 0 } = false := by decide

/-! ### Words written out from 30_encoding.md R83, R85, R86, R87, R89, and their operations -/

theorem test_words_motion :
    decodeFrame referenceChip [0b01010001, 0b00000000, 0b01101000, 0b11011100] = .ok (.run .forward 26844) ∧
    decodeFrame referenceChip [0b01010000, 0b00001111, 0b11111111, 0b11111111] = .ok (.run .reverse 1048575) ∧
    decodeFrame referenceChip [0b01000000, 0b00000000, 0b01100100, 0b00000000] = .ok (.move .reverse 25600) ∧
    decodeFrame referenceChip [0b01000001, 0b00111111, 0b11111111, 0b11111111] = .ok (.move .forward 0x3FFFFF) ∧
    decodeFrame referenceChip [0b01100000, 0b00000001, 0b00100011, 0b01000101] = .ok (.goTo 0x12345) ∧
    decodeFrame referenceChip [0b01100000, 0b00111111, 0b11111111, 0b11111111] = .ok (.goTo (-1)) ∧
    decodeFrame referenceChip [0b01101001, 0b00000001, 0b00100011, 0b01000101] =
      .ok (.goToDir .forward 0x12345) ∧
    decodeFrame referenceChip [0b01101000, 0b00111111, 0b11111111, 0b11111110] =
      .ok (.goToDir .reverse (-2)) := ⟨rfl, rfl, rfl, rfl, rfl, rfl, rfl, rfl⟩

theorem test_words_one_byte :
    decodeFrame referenceChip [0b01110000] = .ok .goHome ∧
    decodeFrame referenceChip [0b01111000] = .ok .goMark ∧
    decodeFrame referenceChip [0b11011000] = .ok .resetPosition ∧
    decodeFrame referenceChip [0b11000000] = .ok .resetDevice ∧
    decodeFrame referenceChip [0b10110000] = .ok .softStop ∧
    decodeFrame referenceChip [0b10111000] = .ok .hardStop ∧
    decodeFrame referenceChip [0b10100000] = .ok .softHiz ∧
    decodeFrame referenceChip [0b10101000] = .ok .hardHiz := ⟨rfl, rfl, rfl, rfl, rfl, rfl, rfl, rfl⟩

theorem test_words_register_writes :
    decodeFrame referenceChip [0b00000001, 0b00111111, 0b11111111, 0b11111111] = .ok (.setAbsPos (-1)) ∧
    decodeFrame referenceChip [0b00000011, 0b00111111, 0b11111111, 0b11111101] = .ok (.setMark (-3)) ∧
    decodeFrame referenceChip [0b00000100, 0b00000001, 0b00100011, 0b01000101] = .ok (.setSpeed 0x12345) ∧
    decodeFrame referenceChip [0b00000101, 0b00001111, 0b11111111] = .ok (.setAcc 4095) ∧
    decodeFrame referenceChip [0b00000110, 0b00000000, 0b01000101] = .ok (.setDec 69) ∧
    decodeFrame referenceChip [0b00000111, 0b00000000, 0b01000010] = .ok (.setMaxSpeed 66) ∧
    decodeFrame referenceChip [0b00001000, 0b00011111, 0b11111111] = .ok (.setMinSpeed 0x1FFF) ∧
    decodeFrame referenceChip [0b00010101, 0b00000000, 0b00100111] = .ok (.setFsSpd 39) ∧
    decodeFrame referenceChip [0b00010110, 0b00000111] = .ok (.setStepMode .m128) ∧
    decodeFrame referenceChip [0b00011001, 0b11111111, 0b11111111] = .ok (.setStatus 0xFFFF) :=
  ⟨rfl, rfl, rfl, rfl, rfl, rfl, rfl, rfl, rfl, rfl⟩

theorem test_words_register_reads :
    decodeFrame referenceChip [0b00100001, 0, 0, 0] = .ok .getAbsPos ∧
    decodeFrame referenceChip [0b00100011, 0, 0, 0] = .ok .getMark ∧
    decodeFrame referenceChip [0b00100100, 0, 0, 0] = .ok .getSpeed ∧
    decodeFrame referenceChip [0b00100101, 0, 0] = .ok .getAcc ∧
    decodeFrame referenceChip [0b00100110, 0, 0] = .ok .getDec ∧
    decodeFrame referenceChip [0b00100111, 0, 0] = .ok .getMaxSpeed ∧
    decodeFrame referenceChip [0b00101000, 0, 0] = .ok .getMinSpeed ∧
    decodeFrame referenceChip [0b00110101, 0, 0] = .ok .getFsSpd ∧
    decodeFrame referenceChip [0b00110110, 0] = .ok .getStepMode ∧
    decodeFrame referenceChip [0b00111001, 0, 0] = .ok .getStatusNc ∧
    decodeFrame referenceChip [0b11010000, 0, 0] = .ok .getStatus :=
  ⟨rfl, rfl, rfl, rfl, rfl, rfl, rfl, rfl, rfl, rfl, rfl⟩

/-- R11: the position of the direction bit is a parameter; with the bit at 1, RUN Forward is `0x50 | 0x02`. -/
theorem test_direction_bit_elsewhere :
    encode { referenceChip with dirBitPos := 1 } (.run .forward 26844) = some [0b01010010, 0x00, 0x68, 0xDC] ∧
    decodeFrame { referenceChip with dirBitPos := 1 } [0b01010010, 0x00, 0x68, 0xDC] = .ok (.run .forward 26844) ∧
    decodeFrame { referenceChip with dirBitPos := 1 } [0b01010001, 0x00, 0x68, 0xDC] =
      .error (.invalidOpcode 0b01010001) := ⟨rfl, rfl, rfl⟩

/-- `set_param(STEP_MODE, 0x1FF)` sends `16 FF` (95_test_vectors.md 2.2): no per-register form carries that value. -/
theorem test_word_generic_step_mode :
    decodeFrame referenceChip [0b00010110, 0b11111111] = .ok (.setParam .stepMode 0xFF) := rfl

/-- V27, the invalid bytes, and transactions that are too short or too long. -/
theorem test_words_refused :
    decodeFrame referenceChip [0x00] = .error (.invalidAddress 0x00) ∧
    decodeFrame referenceChip [0x3A] = .error (.invalidAddress 0x3A) ∧
    decodeFrame referenceChip [0x61] = .error (.invalidOpcode 0x61) ∧
    decodeFrame referenceChip [0x71] = .error (.invalidOpcode 0x71) ∧
    decodeFrame referenceChip [0xD1] = .error (.invalidOpcode 0xD1) ∧
    decodeFrame referenceChip [0xB8, 0x01] = .error (.overlong 0x01) ∧
    decodeFrame referenceChip [0x60, 0x01, 0x23] = .error (.truncated 0x60) ∧
    decodeFrame referenceChip [] = .error .empty := ⟨rfl, rfl, rfl, rfl, rfl, rfl, rfl, rfl⟩

/-- Words as the opcode table numbers them: byte 0 is the opcode. -/
theorem test_table_words :
    decodeTableWord 8 0x60 = some (.goTo 0) ∧ decodeTableWord 32 0x45230160 = some (.goTo 0x12345) ∧
    decodeTableWord 8 0x35 = some .getFsSpd ∧ decodeTableWord 16 0x0716 = some (.setStepMode .m128) ∧
    decodeTableWord 8 0x00 = none := ⟨rfl, rfl, rfl, rfl, rfl⟩

/-- V1, V2: event words. -/
theorem test_event_words :
    (Event.toWord ⟨.stop, true⟩, Event.toWord ⟨.stop, false⟩) = (5#3, 4#3) ∧
    (Event.toWord ⟨.cw, true⟩, Event.toWord ⟨.home, true⟩, Event.toWord ⟨.ccw, false⟩) = (1#3, 7#3, 2#3) := by
  decide

/-! ### The Command Codec, transmit side (V10 to V23 and the register writes of 2.2) -/

theorem test_goTo : sent (.goTo 0x12345) = some [0x60, 0x01, 0x23, 0x45] ∧
    sent (.goTo (-1)) = some [0x60, 0x3F, 0xFF, 0xFF] := by decide
theorem test_goTo_truncates : sent (.goTo 0x400000) = some [0x60, 0x00, 0x00, 0x00] ∧
    sent (.goTo 0x200000) = some [0x60, 0x20, 0x00, 0x00] ∧
    sent (.goTo (-0x200000)) = some [0x60, 0x20, 0x00, 0x00] := by decide
theorem test_goToDir : sent (.goToDir .forward 0x12345) = some [0x69, 0x01, 0x23, 0x45] ∧
    sent (.goToDir .reverse (-2)) = some [0x68, 0x3F, 0xFF, 0xFE] := by decide
theorem test_run : sent (.run .forward 26844) = some [0x51, 0x00, 0x68, 0xDC] ∧
    sent (.run .reverse 0) = some [0x50, 0x00, 0x00, 0x00] := by decide
theorem test_run_wraps : sent (.run .forward 0x100000) = some [0x51, 0x00, 0x00, 0x00] ∧
    sent (.run .forward 1048575) = some [0x51, 0x0F, 0xFF, 0xFF] := by decide
theorem test_move : sent (.move .reverse 25600) = some [0x40, 0x00, 0x64, 0x00] ∧
    sent (.move .forward 0x400001) = some [0x41, 0x00, 0x00, 0x01] ∧
    sent (.move .forward (-1)) = some [0x41, 0x3F, 0xFF, 0xFF] := by decide
theorem test_one_byte_commands :
    sent .goHome = some [0x70] ∧ sent .goMark = some [0x78] ∧ sent .resetPosition = some [0xD8] ∧
    sent .resetDevice = some [0xC0] ∧ sent .softStop = some [0xB0] ∧ sent .hardStop = some [0xB8] ∧
    sent .softHiz = some [0xA0] ∧ sent .hardHiz = some [0xA8] := by decide
theorem test_position_writes : sent (.setAbsPos 0) = some [0x01, 0x00, 0x00, 0x00] ∧
    sent (.setAbsPos (-1)) = some [0x01, 0x3F, 0xFF, 0xFF] ∧
    sent (.setMark (-3)) = some [0x03, 0x3F, 0xFF, 0xFD] := by decide
theorem test_speed_writes : sent (.setSpeed 0x12345) = some [0x04, 0x01, 0x23, 0x45] ∧
    sent (.setMaxSpeed 66) = some [0x07, 0x00, 0x42] ∧ sent (.setMaxSpeed 1024) = some [0x07, 0x00, 0x00] ∧
    sent (.setMinSpeed 419) = some [0x08, 0x01, 0xA3] ∧ sent (.setFsSpd 39) = some [0x15, 0x00, 0x27] := by
  decide
theorem test_acceleration_writes : sent (.setAcc 0x08A) = some [0x05, 0x00, 0x8A] ∧
    sent (.setAcc 0x1000) = some [0x05, 0x00, 0x00] ∧ sent (.setDec 69) = some [0x06, 0x00, 0x45] := by
  decide
theorem test_step_mode_and_status_writes : sent (.setStepMode .m128) = some [0x16, 0x07] ∧
    sent (.setStepMode .m1) = some [0x16, 0x00] ∧ sent (.setStatus 0xFFFF) = some [0x19, 0xFF, 0xFF] := by
  decide
theorem test_setParam : sent (.setParam .minimumSpeed 0x1FFF) = some [0x08, 0x1F, 0xFF] ∧
    sent (.setParam .stepMode 0x1FF) = some [0x16, 0xFF] ∧
    sent (.setParam .acceleration 0x08A) = some [0x05, 0x00, 0x8A] := by decide
/-- V36: saturation against truncation. -/
theorem test_saturation_against_truncation : sent (.setMaxSpeed 1023) = some [0x07, 0x03, 0xFF] ∧
    sent (.setMaxSpeed 1311) = some [0x07, 0x01, 0x1F] := by decide
theorem test_read_requests :
    sent .getAbsPos = some [0x21, 0, 0, 0] ∧ sent .getMark = some [0x23, 0, 0, 0] ∧
    sent .getSpeed = some [0x24, 0, 0, 0] ∧ sent .getAcc = some [0x25, 0, 0] ∧ sent .getDec = some [0x26, 0, 0] ∧
    sent .getMaxSpeed = some [0x27, 0, 0] ∧ sent .getMinSpeed = some [0x28, 0, 0] ∧
    sent .getFsSpd = some [0x35, 0, 0] ∧ sent .getStepMode = some [0x36, 0] ∧
    sent .getStatusNc = some [0x39, 0, 0] ∧ sent .getStatus = some [0xD0, 0, 0] := by decide

/-! ### The Command Codec, receive side (V24, V25); slot 0 of every answer is discarded -/

theorem test_getAbsPos : returned .getAbsPos [0xEE, 0x3F, 0xFF, 0xFE] = some (.int (-2)) ∧
    returned .getAbsPos [0xEE, 0xC1, 0x23, 0x45] = some (.int 74565) := by decide
theorem test_getAbsPos_ends : returned .getAbsPos [0xEE, 0x1F, 0xFF, 0xFF] = some (.int 2097151) ∧
    returned .getAbsPos [0xEE, 0x20, 0x00, 0x00] = some (.int (-2097152)) := by decide
theorem test_getMark : returned .getMark [0xEE, 0xFF, 0xFF, 0xFF] = some (.int (-1)) := by decide
theorem test_getSpeed : returned .getSpeed [0xEE, 0xF0, 0x68, 0xDC] = some (.int 26844) := by decide
theorem test_getAcc : returned .getAcc [0xEE, 0xF0, 0x8A] = some (.int 138) := by decide
theorem test_getDec : returned .getDec [0xEE, 0xF0, 0x8A] = some (.int 138) := by decide
theorem test_getMaxSpeed : returned .getMaxSpeed [0xEE, 0xFC, 0x42] = some (.int 66) := by decide
theorem test_getMinSpeed : returned .getMinSpeed [0xEE, 0x11, 0xA3] = some (.int 4515) := by decide
theorem test_getFsSpd : returned .getFsSpd [0xEE, 0xFC, 0x27] = some (.int 39) := by decide
theorem test_getStepMode : returned .getStepMode [0xEE, 0x07] = some (.stepMode .m128) ∧
    returned .getStepMode [0xEE, 0x8F] = some (.stepMode .m128) ∧
    returned .getStepMode [0xEE, 0x00] = some (.stepMode .m1) := by decide
theorem test_getParam_status : returned (.getParam .status) [0xEE, 0x7E, 0x03] = some (.int 32259) := by
  decide
theorem test_getStatus : returned .getStatus [0xEE, 0x7E, 0x03] =
    some (.status ⟨true, false, .reverse, 0x0000#16, false, 0#2, false⟩) := by decide
theorem test_getStatusNc : returned .getStatusNc [0xEE, 0x7C, 0x10] =
    some (.status ⟨false, true, .forward, 0x0200#16, false, 0#2, false⟩) := by decide

/-- V25c: the all-zero word is busy, and every active-low flag is set. -/
theorem test_decode_zero : decodeStatus referenceLayout 0x00 0x00 =
    ⟨false, true, .reverse, 0x7E00#16, false, 0#2, false⟩ := by decide
/-- V25d. -/
theorem test_decode_ones : decodeStatus referenceLayout 0xFF 0xFF =
    ⟨true, false, .forward, 0x0188#16, true, 3#2, true⟩ := by decide
/-- V25e, V25f. -/
theorem test_decode_motion : decodeStatus referenceLayout 0x7E 0x72 =
      ⟨false, false, .forward, 0x0000#16, false, 3#2, false⟩ ∧
    (decodeStatus referenceLayout 0x7E 0x70).busy = true := by decide
/-- V25g, V25h, V25i: the named flags. -/
theorem test_decode_flags :
    (decodeStatus referenceLayout 0x7E 0x83).notperfCmd = true ∧
    (decodeStatus referenceLayout 0x7F 0x12).wrongCmd = true ∧
    (decodeStatus referenceLayout 0x5E 0x9A).swEvent = true ∧
    (decodeStatus referenceLayout 0x5E 0x9A).notperfCmd = true ∧
    (decodeStatus referenceLayout 0x5E 0x9A).stepLossA = true ∧
    (decodeStatus referenceLayout 0x5E 0x9A).stepLossB = false ∧
    (decodeStatus referenceLayout 0x7C 0x10).uvlo = true := by decide

/-! ### The reference chip (20_memory.md R67, V26) -/

/-- The bytes a reference chip sends in the response slots of one instruction. -/
def chipResponse (i : Instr) (r : RefChip) : Option (List Byte) :=
  (after i (onChip r)).bind fun t => t.bus.getLast?.map fun x => x.rx.drop 1

/-- The reference chip after one instruction. -/
def chipThen (i : Instr) (r : RefChip) : Option Chip := (after i (onChip r)).map (·.chip)

theorem test_chip_clearing_read : chipResponse .getStatus restChip = some [0x7C, 0x03] ∧
    chipThen .getStatus restChip = some (.reference { restChip with latch := 0x7E00#16 }) ∧
    chipResponse .getStatus { restChip with latch := 0x7E00#16 } = some [0x7E, 0x03] := by decide
theorem test_chip_nonclearing_read : chipResponse .getStatusNc restChip = some [0x7C, 0x03] ∧
    chipThen .getStatusNc restChip = some (.reference restChip) := by decide
theorem test_chip_motion : chipThen .goHome restChip = some (.reference movingChip) ∧
    chipThen .hardStop movingChip = some (.reference restChip) := by decide
theorem test_chip_registers : chipResponse .getMinSpeed restChip = some [0x00, 0x0B] ∧
    chipThen (.setMark (-3)) restChip =
      some (.reference { restChip with regs := { restChip.regs with mark := 0x3FFFFD } }) ∧
    chipThen .resetPosition restChip =
      some (.reference { restChip with regs := { restChip.regs with absolutePosition := 0 } }) := by
  decide

/-- R33 (a), R97: an event inside the chip sets WRONG_CMD (bit 8), and the latched UVLO (bit 9) of V26 stays set though
the event's own word has it inactive. -/
theorem test_chip_event_clears_nothing :
    (chipStep { restChip with latch := 0x7F00#16 } (onChip restChip)).chip =
      .reference { restChip with latch := 0x7D00#16 } := by decide

/-- A transaction of a status read with this response word. -/
def statusRead (op : Byte) (b1 b0 : Byte) : Transaction := ⟨.task 0, [op, 0x00, 0x00], [0xEE, b1, b0]⟩

/-- Two kinds of traffic: one transaction, then another for ever. -/
def firstThen (a b : Transaction) (n : Nat) : Transaction := if n = 0 then a else b

theorem firstThen_later (a b : Transaction) {m n : Nat} (h : m < n) : firstThen a b n = b :=
  if_neg (by omega)

/-- R63, V26: the clearing read that shows UVLO and those after it that do not are what CHIP_LATCH asks for. -/
theorem test_CHIP_LATCH_admits_V26 : ChipLatch referenceChip (fun _ => True)
    (firstThen (statusRead 0xD0 0x7C 0x03) (statusRead 0xD0 0x7E 0x03)) := by
  have clearing : ∀ n, commandSeen referenceChip
      (firstThen (statusRead 0xD0 0x7C 0x03) (statusRead 0xD0 0x7E 0x03) n) = some .getStatus := by
    intro n
    unfold firstThen
    split <;> rfl
  refine ⟨fun m n v w k hmn _ _ hj _ => absurd (clearing m) (hj m le_rfl hmn).1,
    fun m n w hmn _ _ hw => ?_, fun m n v w k hmn _ _ hw _ => ?_, fun n v w _ hv hw => ?_⟩
  · rw [firstThen_later _ _ hmn] at hw
    cases hw
    decide
  · rw [firstThen_later _ _ hmn] at hw
    cases hw
    have h : (snapshotOf referenceLayout (statusOfBytes 0x7E 0x03)).faults = 0#16 := by decide
    exact (congrArg (fun f : BitVec 16 => f.getLsbD k) h).trans BitVec.getLsbD_zero
  · rw [firstThen_later _ _ (Nat.lt_succ_self n)] at hw
    cases hw
    unfold firstThen at hv
    split at hv <;> cases hv <;> decide

/-- Nothing happens between the two transactions, and the first is no RESET_DEVICE. -/
theorem undisturbed_firstThen {a b : Transaction} (h : commandSeen referenceChip a ≠ some .resetDevice) :
    Undisturbed referenceChip (fun _ => True) (firstThen a b) 0 1 := by
  intro j _ hj
  obtain rfl : j = 0 := by omega
  exact ⟨trivial, h⟩

/-- R63: a read of either form that still shows the flag right after a clearing read breaks CHIP_LATCH. -/
theorem test_CHIP_LATCH_clears : ¬ ChipClearsLatched referenceChip (fun _ => True)
    (firstThen (statusRead 0xD0 0x7C 0x03) (statusRead 0x39 0x7C 0x03)) :=
  fun h => absurd (h 0 1 _ (by decide) rfl (undisturbed_firstThen (by decide)) rfl) (by decide)

/-- R63: a live bit (MOT_STATUS) that changes with no event breaks CHIP_LATCH. -/
theorem test_CHIP_LATCH_live : ¬ ChipLiveAgrees referenceChip (fun _ => True)
    (firstThen (statusRead 0xD0 0x7E 0x03) (statusRead 0xD0 0x7E 0x23)) :=
  fun h => absurd (h 0 _ _ trivial rfl rfl) (by decide)

/-- R63: a latched flag that disappears with no clearing read breaks CHIP_LATCH. -/
theorem test_CHIP_LATCH_keeps : ¬ ChipKeepsLatched referenceChip
    (firstThen (statusRead 0x39 0x7C 0x03) (statusRead 0x39 0x7E 0x03)) := by
  intro h
  refine absurd (h 0 1 _ _ 9 (by decide) rfl rfl ?_ (by decide)) (by decide)
  intro j _ hj
  obtain rfl : j = 0 := by omega
  exact ⟨by decide, by unfold resetSeen; decide⟩

/-- R33 (a): a latched flag that appears with no event breaks CHIP_LATCH. -/
theorem test_CHIP_LATCH_sets : ¬ ChipSetsLatched referenceChip (fun _ => True)
    (firstThen (statusRead 0x39 0x7E 0x03) (statusRead 0xD0 0x7C 0x03)) := fun h =>
  absurd (h 0 1 _ _ 9 (by decide) (undisturbed_firstThen (by decide)) rfl rfl (by decide)) (by decide)

/-- A write of -3 to MARK, a read of it that gives 0, and a RESET_DEVICE. -/
def markWrite : Transaction := ⟨.task 0, [0x03, 0x3F, 0xFF, 0xFD], [0, 0, 0, 0]⟩
def markRead : Transaction := ⟨.task 0, [0x23, 0, 0, 0], [0, 0, 0, 0]⟩
def deviceReset : Transaction := ⟨.task 0, [0xC0], [0]⟩

/-- R66, R149: CHIP_HOLDS excludes such a read right after the write, and admits it after a RESET_DEVICE. -/
theorem test_CHIP_HOLDS : ¬ ChipHolds referenceChip .mark [markWrite, markRead] ∧
    ChipHolds referenceChip .mark [markWrite, deviceReset, markRead] := by
  refine ⟨fun h => absurd (h [] [] [] markWrite markRead rfl rfl (fun _ h => by cases h) rfl) (by decide), ?_⟩
  intro before between after w g e hw hb hg
  match before, between with
  | [], [] => cases e; exact absurd hg (by decide)
  | [], [_] => cases e; exact absurd (.inr (.inl rfl)) (hb deviceReset List.mem_cons_self)
  | [], _ :: _ :: _ => have := congrArg List.length e; simp at this
  | [_], _ => cases (List.cons.inj (List.cons.inj e).2).1; exact absurd hw (by decide)
  | _ :: _ :: _, _ => have := congrArg List.length e; simp at this; omega

/-! ### Edge Monitor, Event Channel, Dispatcher (V1 to V7) -/

/-- V1, first and second row. -/
theorem test_edge_accepts : after (.edge .stop true) (inInterrupt low []) =
    some { inInterrupt { low with stop := true } [⟨.stop, true⟩] with
      history := [⟨⟨.stop, true⟩, true⟩] } := by decide +kernel
/-- V3. -/
theorem test_edge_suppressed : after (.edge .ccw true) (inInterrupt { low with ccw := true } [⟨.ccw, true⟩]) =
    some (inInterrupt { low with ccw := true } [⟨.ccw, true⟩]) := by decide +kernel
/-- V4, the seventeenth fire: dropped, but the latch keeps the update. -/
theorem test_edge_full : (after (.edge .ccw true) (inInterrupt low full)).map
    (fun t => (t.lvl, t.ch == full, t.drops)) = some ({ low with ccw := true }, true, 1) := by decide
/-- V5: at fifteen events a push still finds room. -/
theorem test_edge_last_place : (after (.edge .ccw true) (inInterrupt low (full.take 15))).map
    (fun t => (t.ch.length, t.drops)) = some (16, 0) := by decide
/-- V6. -/
theorem test_pop : after .pop (inDispatcher .ready [⟨.cw, true⟩, ⟨.stop, true⟩]) =
    some { inDispatcher (.inHandler ⟨.cw, true⟩) [⟨.stop, true⟩] with delivered := [⟨.cw, true⟩] } := by
  decide +kernel
theorem test_pop_blocked : after .pop (inDispatcher .ready []) = some (inDispatcher .ready []) ∧
    after .pop (inDispatcher (.inHandler ⟨.cw, true⟩) full) =
      some (inDispatcher (.inHandler ⟨.cw, true⟩) full) := by decide +kernel
theorem test_handlerReturn : after .handlerReturn (inDispatcher (.inHandler ⟨.cw, true⟩) full) =
    some (inDispatcher .ready full) := by decide +kernel
theorem test_registerHandler :
    (after (.registerHandler 3) { State.reset with handler := none }).map (·.handler) = some (some 3) := by
  decide
theorem test_registerHandler_once : exec (.registerHandler 3) State.reset = .refused .secondRegistration := rfl
/-- R111: a fire samples the line. -/
theorem test_fire_samples_the_line :
    (match step { State.reset with line := { low with home := true }, script := [.fire .home] } with
      | .next t => some t.ch
      | .fault _ => none
      | .refused _ => none) = some [⟨.home, true⟩] := by decide
/-- R266: interrupt context makes no bus transaction. -/
theorem test_interrupt_makes_no_call : exec .hardStop (inInterrupt low []) = .refused .fromInterrupt := rfl

/-! ### Unit Conversion Layer (V30 to V35) -/

theorem test_calculateSpeed : returned (.calculateSpeed 400) [] = some (.int 26844) ∧
    returned (.calculateSpeed (78125 / 2097152)) [] = some (.int 3) := by decide +kernel
theorem test_calculateSpeed_saturates : returned (.calculateSpeed 15625) [] = some (.int 1048575) ∧
    returned (.calculateSpeed 20000) [] = some (.int 1048575) ∧
    returned (.calculateSpeed (-5)) [] = some (.int 0) := by decide +kernel
theorem test_parseSpeed : returned (.parseSpeed 1048575) [] = some (.phys (16383984375 / 1048576)) ∧
    returned (.parseSpeed (-1)) [] = some (.phys (-15625 / 1048576)) := by decide +kernel
theorem test_calculateAcceleration : returned (.calculateAcceleration 1000) [] = some (.int 69) ∧
    returned (.calculateAcceleration 60000) [] = some (.int 4095) ∧
    returned (.calculateAcceleration (727 / 100)) [] = some (.int 0) := by decide +kernel
theorem test_parseAcceleration :
    returned (.parseAcceleration 4095) [] = some (.phys (999755859375 / 16777216)) := by decide +kernel
theorem test_calculateDeceleration : returned (.calculateDeceleration 2008) [] = some (.int 138) ∧
    returned (.calculateDeceleration (-1)) [] = some (.int 0) := by decide +kernel
theorem test_parseDeceleration :
    returned (.parseDeceleration 1) [] = some (.phys (244140625 / 16777216)) := by decide +kernel
theorem test_calculateMaxSpeed : returned (.calculateMaxSpeed 1000) [] = some (.int 66) ∧
    returned (.calculateMaxSpeed (763 / 100)) [] = some (.int 1) ∧
    returned (.calculateMaxSpeed 20000) [] = some (.int 1023) := by decide +kernel
theorem test_parseMaxSpeed : returned (.parseMaxSpeed 1023) [] = some (.phys (15984375 / 1024)) := by
  decide +kernel
theorem test_calculateMinSpeed : returned (.calculateMinSpeed 100) [] = some (.int 419) ∧
    returned (.calculateMinSpeed 976) [] = some (.int 4094) ∧
    returned (.calculateMinSpeed 977) [] = some (.int 4095) := by decide +kernel
theorem test_parseMinSpeed : returned (.parseMinSpeed 4095) [] = some (.phys (63984375 / 65536)) := by
  decide +kernel
theorem test_calculateFsSpd : returned (.calculateFsSpd (6027 / 10)) [] = some (.int 39) ∧
    returned (.calculateFsSpd (15625 / 1024)) [] = some (.int 1) ∧
    returned (.calculateFsSpd 0) [] = some (.int 0) ∧ returned (.calculateFsSpd 15625) [] = some (.int 1023) := by
  decide +kernel
theorem test_parseFsSpd : returned (.parseFsSpd 0) [] = some (.phys (15625 / 2048)) ∧
    returned (.parseFsSpd 1023) [] = some (.phys (31984375 / 2048)) := by decide +kernel

/-! ### Motion State Machine (V40 to V45, P3, P5) -/

/-- The state of task 0's instance after a step of it, and the last bytes sent. -/
def engineView (s : State) : Option EngineState × Option (List Byte) :=
  (engineStateOf (.task 0) s, s.bus.getLast?.map (·.tx))

theorem test_wait : after .wait State.reset = some (withInstance .idle .wait false []) := by decide +kernel
theorem test_wait_enters : engineView (enterWaitStep (.task 0) (withInstance .idle .wait false [])) =
    (some .waiting, none) := by decide
theorem test_approachHome : after .approachHome State.reset = some (withInstance .idle .approachHome false []) ∧
    engineView (seekStep (.task 0) (withInstance .idle .approachHome false [])) =
      (some .seeking, some [0x70]) := by decide +kernel
theorem test_approachTarget : engineView (seekStep (.task 0) (withInstance .idle (.approachTarget 0x12345) false [])) =
      (some .seeking, some [0x60, 0x01, 0x23, 0x45]) ∧
    engineView (seekStep (.task 0) (withInstance .idle (.approachTarget 0x400005) false [])) =
      (some .seeking, some [0x60, 0x00, 0x00, 0x05]) := by decide
theorem test_poll_busy : engineView (pollStep (.task 0) (withInstance .waiting .wait false [0xEE, 0x7E, 0x70])) =
    (some .waiting, some [0x39, 0x00, 0x00]) := by decide
theorem test_poll_done : engineView (pollStep (.task 0) (withInstance .waiting .wait false [0xEE, 0x7E, 0x12])) =
    (some .done, some [0x39, 0x00, 0x00]) := by decide
/-- P5: a stop between two polls. -/
theorem test_poll_aborted : engineView (pollStep (.task 0) (withInstance .waiting .approachHome true [0xEE, 0x7E, 0x12])) =
    (some .aborted, some [0x39, 0x00, 0x00]) := by decide
/-- V44: a fault flag does not end the wait. -/
theorem test_poll_ignores_faults : engineView (pollStep (.task 0) (withInstance .waiting .wait false [0xEE, 0x5E, 0x70])) =
    (some .waiting, some [0x39, 0x00, 0x00]) := by decide
/-- V42: the clearing form. -/
theorem test_poll_clearing : engineView (pollStep (.task 0)
    { withInstance .waiting .wait false [0xEE, 0x7E, 0x12] with
      params := { referenceParams with waitClearing := true } }) = (some .done, some [0xD0, 0x00, 0x00]) := by
  decide
theorem test_return : (resumeStep (.task 0) (withInstance .done .wait false [])).ms = [] := by decide
theorem test_stop_marks : (after .hardStop { withInstance .waiting .approachHome false [] with ctx := .task 1 }).map
    (·.ms) = some [⟨.task 0, .waiting, .approachHome, true⟩] := by decide
theorem test_suspended_caller_waits : exec .goHome (withInstance .waiting .wait false []) =
    .next (withInstance .waiting .wait false []) := rfl

/-! ### Witnesses: for every statement with hypotheses, a state and operands that meet all of them -/

/-- A state whose steps laid down are these. -/
def scripted (as : List Action) : State := { State.reset with script := as }

/-- The state before registration, in one context. -/
def unregistered (c : Context) : State := { State.reset with handler := none, ctx := c }

theorem witness_DecodeOfEncode_signed : referenceChip.widthsOk = true ∧ referenceChip.unambiguous = true ∧
    Instr.wf referenceChip (.goTo (-2)) = true ∧
    encode referenceChip (.goTo (-2)) = some [0x60, 0x3F, 0xFF, 0xFE] := by decide
theorem witness_DecodeOfEncode_generic : Instr.wf referenceChip (.setParam .mark (-0x200000)) = true ∧
    encode referenceChip (.setParam .mark (-0x200000)) = some [0x03, 0x20, 0x00, 0x00] ∧
    Instr.canon (.setParam .mark (-0x200000)) = .setMark (-0x200000) := by decide
theorem witness_NoForeignOpcodeByte : commandOf referenceChip 0x51 = .ok (.run .forward) ∧
    commandOf referenceChip 0x39 = .ok (.getParam .status) := ⟨rfl, rfl⟩
theorem witness_TransactionHasSlots : (∀ r, referenceChip.width r ≤ 32) ∧
    Instr.call (.run .forward 5) = some (.run .forward, 5) ∧
    encode referenceChip (.run .forward 5) = some [0x51, 0x00, 0x00, 0x05] :=
  ⟨fun r => by cases r <;> decide, rfl, rfl⟩
/-- R161 (b), (c) and the ends of the signed range, with `W = 22`. -/
theorem witness_TruncationLaw : mask 22 (-1) = 0x3FFFFF ∧ mask 22 (-0x400000) = 0 ∧
    sext 22 (mask 22 (-0x200000)) = -0x200000 ∧ sext 22 (mask 22 0x1FFFFF) = 0x1FFFFF ∧
    sext 22 (mask 22 0x200000) = -2097152 ∧ sext 22 (mask 22 0x3FFFFF) = -1 := by decide
theorem witness_TruncationLaw_sent : Instr.call (.move .forward (-1)) = some (.move .forward, -1) ∧
    Command.format (.move .forward) = .fw := ⟨rfl, rfl⟩
theorem witness_BigEndian : beBytes 3 0x12345 = [0x01, 0x23, 0x45] ∧ 2 < 3 ∧ beBytes 0 7 = [] := by decide
theorem witness_ReceivedValue : (0 < 1 ∧ fieldValue true 1 1 = -1) ∧
    (0 < 22 ∧ fieldValue true 22 0xC12345 = 74565) ∧ fieldValue false 20 0xF068DC = 26844 := by decide
theorem witness_MayCall : MayCall State.reset ∧
    MayCall (inDispatcher (.inHandler ⟨.cw, true⟩) []) ∧ ¬ MayCall (inDispatcher .ready []) := by decide
/-- The four clauses of OnlyTheContextRefusesACall, for a codec operation and for a helper. -/
theorem witness_OnlyTheContext_kinds : Instr.call .goHome = some (.goHome, 0) ∧
    (Instr.approachTarget 5 = .approachTarget 5) := ⟨rfl, rfl⟩
theorem witness_OnlyTheContext_interrupt : (inInterrupt low []).ctx = .interrupt := rfl
theorem witness_OnlyTheContext_dispatcher :
    (inDispatcher .ready []).ctx = .dispatcher ∧ (inDispatcher .ready []).disp = .ready := ⟨rfl, rfl⟩
theorem witness_OnlyTheContext_suspended : (withInstance .waiting .wait false []).ctx ≠ .interrupt ∧
    ((withInstance .waiting .wait false []).ctx = .dispatcher → (withInstance .waiting .wait false []).disp ≠ .ready) ∧
    ∃ x ∈ (withInstance .waiting .wait false []).ms, x.caller = (withInstance .waiting .wait false []).ctx :=
  ⟨by decide, by decide, _, List.mem_cons_self, rfl⟩
theorem witness_WrongContext : State.reset.ctx ≠ .interrupt ∧ State.reset.ctx ≠ .dispatcher ∧
    (inInterrupt low []).ctx = .interrupt ∧ (inDispatcher .ready []).ctx = .dispatcher := by decide
theorem witness_GoTo : MayCall State.reset ∧ State.reset.params.chip.opcGoTo = 0x60#8 ∧
    State.reset.params.chip.width .absolutePosition = 22 := by decide
theorem witness_GetStepMode : MayCall State.reset ∧ 3 ≤ State.reset.params.chip.width .stepMode := by decide
theorem witness_SentBytes : State.reset.params.chip.statusWidthOk = true ∧ MayCall State.reset ∧
    encode State.reset.params.chip .getStatusNc = some [0x39, 0x00, 0x00] := by decide
theorem witness_CodecLeaves : Instr.call (.run .forward 1) = some (.run .forward, 1) ∧
    isStop (.run .forward) = false ∧ (∃ t, exec (.run .forward 1) State.reset = .next t) ∧
    Instr.call .hardStop = some (.hardStop, 0) ∧ isStop .hardStop = true ∧
    ∃ t, exec .hardStop (withInstance .waiting .wait false []) = .next t :=
  ⟨rfl, rfl, ⟨_, rfl⟩, rfl, rfl, ⟨_, rfl⟩⟩
theorem witness_OracleBytes : (answering [1, 2, 3]).chip = .oracle ∧
    [0xD0#8, 0x00#8, 0x00#8].length ≤ (answering [1, 2, 3]).answers.length := by decide
theorem witness_ReferenceChipHolds : MayCall (onChip restChip) ∧
    (onChip restChip).params.chip.unambiguous = true ∧ (onChip restChip).chip = .reference restChip ∧
    Reg.mark ≠ .status ∧ Reg.speed ≠ .mark := by decide
theorem witness_ReferenceChipStatus : MayCall (onChip restChip) ∧
    (onChip restChip).params.chip.statusWidthOk = true ∧ (onChip restChip).params.chip.layout.wf = true ∧
    (onChip restChip).params.chip.unambiguous = true ∧ (onChip restChip).chip = .reference restChip := by
  decide
/-- At the reference layout the three fields of notes/assumptions/17 are not latched. -/
theorem witness_ReferenceChipStatus_live :
    (onChip restChip).params.chip.layout.latched &&& 0x8064#16 = 0#16 := by decide
/-- A clearing read clears the latched UVLO (bit 9) in one step. -/
theorem witness_ReferenceChipStatus_clearing :
    let s : State := { scripted [.op (.task 0) .getStatus] with chip := .reference restChip };
    ∃ t, step s = .next t ∧ t.chip = .reference { restChip with latch := 0x7E00#16 } ∧
      s.params.chip.layout.latched.getLsbD 9 = true ∧
      restChip.latch.getLsbD 9 ≠ s.params.chip.layout.activeLow.getLsbD 9 ∧
      (0x7E00#16).getLsbD 9 = s.params.chip.layout.activeLow.getLsbD 9 :=
  ⟨_, rfl, rfl, by decide, by decide, by decide⟩
theorem witness_ReferenceChipCommands_motion : MayCall (onChip restChip) ∧
    (onChip restChip).params.chip.statusWidthOk = true ∧ (onChip restChip).params.chip.layout.wf = true ∧
    (onChip restChip).params.chip.unambiguous = true ∧ (onChip restChip).chip = .reference restChip ∧
    Instr.call .goHome = some (.goHome, 0) ∧ isMotion .goHome = true := by decide
theorem witness_ReferenceChipCommands_stop : MayCall (onChip movingChip) ∧
    (onChip movingChip).chip = .reference movingChip ∧
    Instr.call .softHiz = some (.softHiz, 0) ∧ isStop .softHiz = true := by decide
theorem witness_DecodeStatus : (14 < 16 ∧ referenceLayout.latched.getLsbD 14 = true) ∧
    referenceLayout.latched.getLsbD 15 = false := by decide

theorem witness_EdgeIsTheDebounceFilter_suppressed : (inInterrupt low full).ctx = .interrupt ∧
    (inInterrupt low full).handler = some 0 ∧ (inInterrupt low full).lvl.get .stop = false := by decide
theorem witness_EdgeIsTheDebounceFilter_room : (inInterrupt low (full.take 15)).ctx = .interrupt ∧
    (inInterrupt low (full.take 15)).handler = some 0 ∧ (inInterrupt low (full.take 15)).lvl.get .stop ≠ true ∧
    (inInterrupt low (full.take 15)).ch.length < (inInterrupt low (full.take 15)).params.cap := by decide
theorem witness_EdgeIsTheDebounceFilter_full : (inInterrupt low full).ctx = .interrupt ∧
    (inInterrupt low full).handler = some 0 ∧ (inInterrupt low full).lvl.get .stop ≠ true ∧
    (inInterrupt low full).params.cap ≤ (inInterrupt low full).ch.length ∧ ButtonId.cw ≠ .stop := by decide
/-- R115: the raw sequence of the document emits three events. -/
theorem witness_FiresOfOneLine : (inInterrupt low []).ctx = .interrupt ∧ (inInterrupt low []).handler = some 0 ∧
    (inInterrupt low []).ch.length + [true, true, false, false, true].length ≤ (inInterrupt low []).params.cap ∧
    withoutRepeats false [true, true, false, false, true] = [true, false, true] := by decide
/-- With a full channel, and two of four fires accepted. -/
theorem witness_FullChannel : (inInterrupt low full).ctx = .interrupt ∧
    (inInterrupt low full).handler = some 0 ∧
    (inInterrupt low full).ch.length ≤ (inInterrupt low full).params.cap ∧
    acceptedOf low [⟨.cw, true⟩, ⟨.cw, true⟩, ⟨.ccw, false⟩, ⟨.home, true⟩] = [⟨.cw, true⟩, ⟨.home, true⟩] := by
  decide
theorem witness_PopDelivers : (inDispatcher .ready full).ctx = .dispatcher ∧
    (inDispatcher .ready full).handler = some 0 ∧ (inDispatcher .ready full).disp = .ready ∧
    (inDispatcher .ready full).ch = ⟨.cw, true⟩ :: List.replicate 15 ⟨.cw, true⟩ := by decide
theorem witness_DispatcherWaits_ready : (inDispatcher .ready []).ctx = .dispatcher ∧
    (inDispatcher .ready []).handler = some 0 ∧ (inDispatcher .ready []).disp = .ready ∧
    (inDispatcher .ready []).ch = [] := by decide
theorem witness_DispatcherWaits_suspended :
    let s : State := { inDispatcher (.inHandler ⟨.cw, true⟩) [] with ms := [⟨.dispatcher, .waiting, .wait, false⟩] };
    s.ctx = .dispatcher ∧ s.handler = some 0 ∧ s.disp ≠ .ready ∧ ∃ x ∈ s.ms, x.caller = .dispatcher :=
  ⟨rfl, rfl, by decide, _, List.mem_cons_self, rfl⟩
theorem witness_HandlerReturn : (inDispatcher (.inHandler ⟨.cw, true⟩) []).ctx = .dispatcher ∧
    (inDispatcher (.inHandler ⟨.cw, true⟩) []).disp = .inHandler ⟨.cw, true⟩ ∧
    ∀ x ∈ (inDispatcher (.inHandler ⟨.cw, true⟩) []).ms, x.caller ≠ .dispatcher := by decide
theorem witness_DrainDelivers : (inDispatcher .ready full).ctx = .dispatcher ∧
    (inDispatcher .ready full).handler = some 0 ∧ (inDispatcher .ready full).disp = .ready ∧
    (∀ x ∈ (inDispatcher .ready full).ms, x.caller ≠ .dispatcher) ∧
    16 ≤ (inDispatcher .ready full).ch.length := by decide
theorem witness_Registration_first : (unregistered (.task 4)).ctx = .task 4 ∧
    (unregistered (.task 4)).handler = none ∧ ∀ x ∈ (unregistered (.task 4)).ms, x.caller ≠ .task 4 := by decide
theorem witness_Registration_second : State.reset.ctx = .task 0 ∧ State.reset.handler ≠ none := by decide
theorem witness_Registration_before : ((unregistered .interrupt).ctx = .interrupt ∧
    (unregistered .interrupt).handler = none) ∧
    ((unregistered .dispatcher).ctx = .dispatcher ∧ (unregistered .dispatcher).handler = none) := by decide

/-- A step that pushes an event: every invariant of the channel and of the level table holds before it. -/
theorem witness_invariants_fire :
    (∃ t, step (scripted [.op .interrupt (.edge .stop true)]) = .next t) ∧
    ChannelBounded (scripted [.op .interrupt (.edge .stop true)]) ∧
    DropsCounted (scripted [.op .interrupt (.edge .stop true)]) ∧
    DeliveredInOrder (scripted [.op .interrupt (.edge .stop true)]) ∧
    LevelTableCurrent (scripted [.op .interrupt (.edge .stop true)]) ∧
    TransitionsAlternate (scripted [.op .interrupt (.edge .stop true)]) ∧
    HandlerRunsOnLast (scripted [.op .interrupt (.edge .stop true)]) :=
  ⟨⟨_, rfl⟩, by decide, by decide, by decide, fun i => by cases i <;> rfl, fun i => by cases i <;> rfl, trivial⟩
/-- A task that is about to poll a moving reference chip. -/
def polling : State :=
  { withInstance .waiting .wait false [] with chip := .reference movingChip, script := [.poll (.task 0)] }

/-- A poll: the engine, bus and chip invariants hold before it. -/
theorem witness_invariants_poll : (∃ t, step polling = .next t) ∧ InstancesOk polling ∧ CallersOk polling ∧
    EmptyBeforeRegistration polling ∧ BusWellFormed polling ∧ ChipWellFormed polling :=
  ⟨⟨_, rfl⟩, by decide, ⟨by decide, by decide⟩, (fun h => by cases h), (fun t h => by cases h), by decide⟩
theorem witness_SingleWriters : (∃ t, exec (.edge .stop true) (inInterrupt low []) = .next t ∧
      t.lvl.get .stop ≠ (inInterrupt low []).lvl.get .stop ∧ t.ch ≠ (inInterrupt low []).ch) ∧
    (∃ t, exec .pop (inDispatcher .ready full) = .next t ∧ t.ch ≠ (inDispatcher .ready full).ch ∧
      t.delivered ≠ (inDispatcher .ready full).delivered) ∧ ∀ h, Instr.pop ≠ .registerHandler h :=
  ⟨⟨_, rfl, by decide, by decide⟩, ⟨_, rfl, by decide, by decide⟩, fun _ h => by cases h⟩
theorem witness_Configuration : (∃ t, step (scripted [.op (.task 0) .goHome]) = .next t) ∧
    (scripted [.op (.task 0) .goHome]).handler = some 0 := ⟨⟨_, rfl⟩, rfl⟩
/-- R16, R121: two conversions laid down before a fire take no step: the first step is the fire, and the last value is
there. -/
theorem test_conversions_are_no_steps :
    (match step { scripted [.op .dispatcher (.calculateSpeed 400), .op (.task 1) (.calculateFsSpd 0),
        .setLine .home true] with lvl := low } with
      | .next t => some (t.line, t.ret, t.script, t.ctx)
      | .fault _ => none
      | .refused _ => none) =
      some ({ low with home := true }, some ⟨.task 1, .int 0⟩, [], .task 0) := by decide +kernel
theorem witness_StepRuns_conversion :
    (scripted [.op (.task 1) (.parseSpeed 3)]).script = [.op (.task 1) (.parseSpeed 3)] ∧
    isConversion (.parseSpeed 3) = true ∧ isConversion .goHome = false := ⟨rfl, rfl, rfl⟩
theorem witness_StepRuns : (scripted [.op (.task 1) .goHome]).script = [.op (.task 1) .goHome] ∧
    ((scripted [.frame (.task 1) [0xB8]]).script = [.frame (.task 1) [0xB8]] ∧
      decodeFrame (scripted [.frame (.task 1) [0xB8]]).params.chip [0xB8] = .ok .hardStop) ∧
    (scripted [.fire .cw]).script = [.fire .cw] ∧
    (State.reset.params.chip = referenceChip ∧ decodeTableWord 8 0xB8 = some .hardStop) :=
  ⟨rfl, ⟨rfl, rfl⟩, rfl, rfl, rfl⟩
/-- Task 0 is suspended, so the placed word runs in task 1. -/
theorem witness_StepRuns_suspended : suspended (withInstance .waiting .wait false []) (.task 0) = true ∧
    freshTask (withInstance .waiting .wait false []) = 1 := by decide
theorem witness_StepRunsTheOtherAgents_instance :
    (scripted [.seek (.task 0)]).script = [.seek (.task 0)] ∧
    (scripted [.enterWait (.task 0)]).script = [.enterWait (.task 0)] ∧
    (scripted [.resume (.task 0)]).script = [.resume (.task 0)] ∧
    (scripted [.setLine .home true]).script = [.setLine .home true] := ⟨rfl, rfl, rfl, rfl⟩
theorem witness_StepRunsTheOtherAgents_chip :
    let s : State := { scripted [.motionComplete] with chip := .reference movingChip };
    (s.script = [.motionComplete] ∧ s.chip = .reference movingChip) ∧
    ((scripted [.chipStep movingChip]).script = [.chipStep movingChip] ∧
      (scripted [.chipStep movingChip]).chip = .oracle) ∧
    s.params.chip.layout.latched.getLsbD 9 = true := ⟨⟨rfl, rfl⟩, ⟨rfl, rfl⟩, by decide⟩
theorem witness_StepRunsTheOtherAgents : (scripted [.poll (.task 0)]).script = [.poll (.task 0)] ∧
    (scripted [.motionComplete]).chip = .oracle ∧
    ({ scripted [.chipStep movingChip] with chip := .reference restChip } : State).chip = .reference restChip ∧
    decodeFrame (scripted [.frame (.task 0) [0x71]]).params.chip [0x71] = .error (.invalidOpcode 0x71) ∧
    State.reset.script = [] := ⟨rfl, rfl, rfl, rfl, rfl⟩

/-- Each helper answers a next state, so that the clause on the caller's next call is not empty. -/
theorem witness_HelpersCreate : MayCall State.reset ∧ (∃ t, exec .wait State.reset = .next t) ∧
    (∃ t, exec .approachHome State.reset = .next t) ∧
    (∃ t, exec (.approachTarget 7) State.reset = .next t) := ⟨by decide, ⟨_, rfl⟩, ⟨_, rfl⟩, ⟨_, rfl⟩⟩
theorem witness_Seek : instanceOf (.task 0) (withInstance .idle .approachHome false []) =
      some ⟨.task 0, .idle, .approachHome, false⟩ ∧
    instanceOf (.task 0) (withInstance .idle (.approachTarget 7) false []) =
      some ⟨.task 0, .idle, .approachTarget 7, false⟩ ∧
    instanceOf (.task 0) (withInstance .idle .wait false []) = some ⟨.task 0, .idle, .wait, false⟩ ∧
    engineStateOf (.task 0) (withInstance .waiting .wait false []) ≠ some .idle := by decide
theorem witness_EnterWait : instanceOf (.task 0) (withInstance .seeking .approachHome false []) =
      some ⟨.task 0, .seeking, .approachHome, false⟩ ∧
    instanceOf (.task 0) (withInstance .idle .approachHome false []) =
      some ⟨.task 0, .idle, .approachHome, false⟩ := by decide
theorem witness_Return : instanceOf (.task 0) (withInstance .aborted .wait true []) =
      some ⟨.task 0, .aborted, .wait, true⟩ ∧
    instanceOf (.task 0) (withInstance .done .wait false []) = some ⟨.task 0, .done, .wait, false⟩ := by decide
theorem witness_Poll : instanceOf (.task 0) (withInstance .waiting .wait false []) =
    some ⟨.task 0, .waiting, .wait, false⟩ := by decide

/-- P3: two polls read busy, the third does not. -/
def busyTwice : State :=
  withInstance .waiting .wait false [0xEE, 0x7E, 0x70, 0xEE, 0x7E, 0x70, 0xEE, 0x7E, 0x12]

theorem witness_HelperReturns : instanceOf (.task 0) busyTwice = some ⟨.task 0, .waiting, .wait, false⟩ ∧
    (∀ j, j < 2 → pollBusy (polls (.task 0) j busyTwice) = true) ∧
    pollBusy (polls (.task 0) 2 busyTwice) = false := by decide
/-- R232: the first poll already reads not busy. -/
theorem witness_HelperReturns_first :
    pollBusy (polls (.task 0) 0 (withInstance .waiting .wait false [0xEE, 0x7E, 0x12])) = false := by
  decide

/-- A waiting task and a reference chip that moves (V43). -/
def endless : State := { withInstance .waiting .wait false [] with chip := .reference movingChip }

/-- The poll of a moving reference chip reads busy and changes neither the chip nor the instances. -/
theorem poll_of_moving (s : State) (hp : s.params = referenceParams) (hc : s.chip = .reference movingChip) :
    (pollRead s).1.busy = true ∧ (pollRead s).2.chip = .reference movingChip := by
  have hu : s.params.chip.unambiguous = true := by rw [hp]; decide
  have hk : isStatusRead s.params.chip (.getParam .status) := .inr ⟨rfl, by rw [hp]; decide⟩
  have hr : pollRead s = readStatus (commandByte s.params.chip (.getParam .status)) s := by
    have hw : s.params.waitClearing = false := by rw [hp]; rfl
    simp only [pollRead, hw, Bool.false_eq_true, if_false]
    rfl
  rw [hr, readStatus_reference hu hc hk, readStatus_reference_chip _ hu hc,
    refStatus_busy (by rw [hp]; decide)]
  exact ⟨rfl, rfl⟩

theorem pollStep_of_moving (s : State) (hp : s.params = referenceParams) (hc : s.chip = .reference movingChip)
    (hm : s.ms = endless.ms) : pollStep (.task 0) s = (pollRead s).2 := by
  have hi : instanceOf (.task 0) s = some ⟨.task 0, .waiting, .wait, false⟩ := by
    rw [instanceOf, hm]; rfl
  simp only [pollStep, hi, (poll_of_moving s hp hc).1, if_true, yieldFor]

theorem pollRead_kept (s : State) : (pollRead s).2.params = s.params ∧ (pollRead s).2.ms = s.ms := by
  unfold pollRead; split <;> exact ⟨rfl, rfl⟩

theorem polls_endless (n : Nat) : (polls (.task 0) n endless).params = referenceParams ∧
    (polls (.task 0) n endless).chip = .reference movingChip ∧ (polls (.task 0) n endless).ms = endless.ms := by
  induction n with
  | zero => exact ⟨rfl, rfl, rfl⟩
  | succ n ih =>
    obtain ⟨hp, hc, hm⟩ := ih
    rw [polls, pollStep_of_moving _ hp hc hm]
    exact ⟨(pollRead_kept _).1.trans hp, (poll_of_moving _ hp hc).2, (pollRead_kept _).2.trans hm⟩

theorem witness_WaitHasNoTimeout : instanceOf (.task 0) endless = some ⟨.task 0, .waiting, .wait, false⟩ ∧
    ∀ j, pollBusy (polls (.task 0) j endless) = true :=
  ⟨rfl, fun j => (poll_of_moving _ (polls_endless j).1 (polls_endless j).2.1).1⟩
theorem witness_InstancesAreIndependent : Context.task 1 ≠ .task 0 := by decide

theorem witness_CalculateSaturates : referenceConv.minimumSpeed.wf = true ∧
    referenceConv.minimumSpeed.tmax < 2 ^ 13 := by decide +kernel
/-- The two ends of the range themselves, and a negative value. -/
theorem witness_CalculateSaturates_ends :
    (referenceConv.fullStepSpeed.tmax : Rat) ≤
      31984375 / 2048 * referenceConv.fullStepSpeed.k - referenceConv.fullStepSpeed.off ∧
    15625 / 2048 * referenceConv.fullStepSpeed.k - referenceConv.fullStepSpeed.off ≤
      (referenceConv.fullStepSpeed.tmin : Rat) ∧
    0 ≤ referenceConv.fullStepSpeed.off ∧ (-5 : Rat) ≤ 0 ∧ referenceConv.fullStepSpeed.wf = true := by
  decide +kernel
theorem witness_RoundTrip : parse referenceConv.speed referenceConv.speed.tmin ≤ 400 ∧
    400 ≤ parse referenceConv.speed referenceConv.speed.tmax ∧ referenceConv.speed.wf = true := by decide +kernel
/-- The upper end of the valid range meets the hypotheses too. -/
theorem witness_RoundTrip_end : referenceConv.fullStepSpeed.wf = true ∧
    parse referenceConv.fullStepSpeed referenceConv.fullStepSpeed.tmin ≤ 31984375 / 2048 ∧
    31984375 / 2048 ≤ parse referenceConv.fullStepSpeed referenceConv.fullStepSpeed.tmax := by decide +kernel
theorem witness_TicksRoundTrip : referenceConv.fullStepSpeed.wf = true ∧
    ((referenceConv.fullStepSpeed.tmin : Int) ≤ 1023 ∧ 1023 ≤ (referenceConv.fullStepSpeed.tmax : Int)) := by
  decide +kernel
theorem witness_Monotone : (0.5 : Rat) ≤ 1 ∧ (-1 : Int) < 0 ∧ referenceConv.speed.wf = true := by decide +kernel

end Sys2Proof.Tests
end

namespace Sys2Proof.Machine

/-! ### The reference values -/

theorem referenceChip_wf : referenceChip.wf = true := by decide

theorem referenceChip_unambiguous : referenceChip.unambiguous = true := by decide

/-- The values of 42_unit_conversion.md R192 have a positive scale and an ordered range (00_scope.md R12). -/
theorem referenceConv_wf : referenceConv.speed.wf = true ∧ referenceConv.acceleration.wf = true ∧
    referenceConv.deceleration.wf = true ∧ referenceConv.maximumSpeed.wf = true ∧
    referenceConv.minimumSpeed.wf = true ∧ referenceConv.fullStepSpeed.wf = true := by
  norm_num [ConvConst.wf, referenceConv]

theorem referenceParams_wf : referenceParams.wf = true := by
  obtain ⟨hspeed, hacc, hdec, hmax, hmin, hfs⟩ := referenceConv_wf
  simp [Params.wf, referenceParams, referenceChip_wf, hspeed, hacc, hdec, hmax, hmin, hfs]

/-- Settles O1: the chip, the six quantities and the capacity one by one, and the opcode map over all commands. -/
theorem referenceConstantsAreWellFormed : Obligations.ReferenceConstantsAreWellFormed :=
  ⟨referenceParams_wf, referenceChip_unambiguous⟩

/-! ### The step, by what is laid down first -/

/-- An action that calls no conversion runs as the step, and is used up. -/
theorem step_of_script {s : State} {a : Action} {rest : List Action} (hs : s.script = a :: rest)
    (ha : conversionOf a = none) : step s = runAction a { s with script := rest } := by
  unfold step
  rw [beforeStep_of_step hs ha]
  simp only [nextAction, afterChoice, hs]

theorem conversionOf_op_none {c : Context} {i : Instr} (hi : isConversion i = false) :
    conversionOf (.op c i) = none := by
  simp [conversionOf, hi]

theorem step_of_op {s : State} {c : Context} {i : Instr} {rest : List Action}
    (hs : s.script = .op c i :: rest) (hi : isConversion i = false) :
    step s = exec i { s with script := rest, ctx := c } := by
  rw [step_of_script hs (conversionOf_op_none hi)]
  simp only [runAction, hi, Bool.false_eq_true, if_false, asContext]

/-- A conversion takes no step: the step is the one after it (00_scope.md R16). -/
theorem step_of_conversion {s : State} {c : Context} {i : Instr} {rest : List Action}
    (hs : s.script = .op c i :: rest) (hi : isConversion i = true) :
    step s = step { evaluate c i s with script := rest } := by
  unfold step
  rw [beforeStep_of_conversion hs hi]

/-- A conversion and its evaluation before the step are about one value. -/
theorem step_of_conversion_value {s : State} {c : Context} {i : Instr} {rest : List Action}
    (hs : s.script = .op c i :: rest) (hi : isConversion i = true) :
    ∃ v, exec i { s with ctx := c } = .next { s with ctx := c, ret := some ⟨c, v⟩ } ∧
      step s = step { s with script := rest, ret := some ⟨c, v⟩ } := by
  obtain ⟨f, hf⟩ := exec_conversion hi
  have hev : evaluate c i s = { s with ret := some ⟨c, f s.params⟩ } := by
    simp only [evaluate, hf]; rfl
  refine ⟨f s.params, hf _, ?_⟩
  rw [step_of_conversion hs hi, hev]

theorem step_of_frame {s : State} {c : Context} {bs : List Byte} {i : Instr} {rest : List Action}
    (hs : s.script = .frame c bs :: rest) (hd : decodeFrame s.params.chip bs = .ok i) :
    step s = exec i { s with script := rest, ctx := c } := by
  rw [step_of_script hs rfl]
  simp only [runAction, hd, asContext]

theorem step_of_fire {s : State} {b : ButtonId} {rest : List Action} (hs : s.script = .fire b :: rest) :
    step s = exec (.edge b (s.line.get b)) { s with script := rest, ctx := .interrupt } :=
  step_of_script hs rfl

/-! ### A word of the opcode table -/

theorem decodeFrame_of_decodeTableWord {nbits w : Nat} {i : Instr} (h : decodeTableWord nbits w = some i) :
    decodeFrame referenceChip (tableFrame referenceChip nbits w) = .ok i := by
  unfold decodeTableWord at h
  split at h
  · next j hj => cases h; exact hj
  · cases h

/-- The placed word is the first action of the schedule, and the schedule behind it is as it was. -/
theorem step_withFetchWord {s : State} {nbits w : Nat} {i : Instr} (hc : s.params.chip = referenceChip)
    (hw : decodeTableWord nbits w = some i) :
    step (s.withFetchWord nbits w) = exec i { s with ctx := .task (freshTask s) } := by
  have hd : decodeFrame (s.withFetchWord nbits w).params.chip (tableFrame s.params.chip nbits w) = .ok i := by
    rw [State.withFetchWord, hc]
    exact decodeFrame_of_decodeTableWord hw
  exact step_of_frame rfl hd

theorem not_suspended_freshTask (s : State) : suspended s (.task (freshTask s)) = false :=
  (not_suspended_iff s _).mpr fun _ hx hk => Nat.lt_irrefl _ (lt_freshTask hx hk)

/-- Settles O47: one lemma per kind of action at the head of the schedule, and the placed word as the frame it is. -/
theorem stepRunsTheDecodedInstruction : Obligations.StepRunsTheDecodedInstruction :=
  fun s _ _ _ _ _ _ _ =>
    ⟨step_of_op, step_of_conversion_value, step_of_frame, step_of_fire, step_withFetchWord,
      not_suspended_freshTask s⟩

end Sys2Proof.Machine

namespace Sys2Proof.Machine

/-! ### What a step does to the event side of the block -/

/-- The part of the state that the Edge Monitor, the Dispatcher and the construction write, and the parameters, are the
same in two states. -/
structure SameEvents (s t : State) : Prop where
  params : t.params = s.params
  lvl : t.lvl = s.lvl
  ch : t.ch = s.ch
  disp : t.disp = s.disp
  handler : t.handler = s.handler
  drops : t.drops = s.drops
  delivered : t.delivered = s.delivered
  history : t.history = s.history

/-- Evaluating the conversions laid down, choosing the step and its context leave the event side alone. -/
theorem sameEvents_choice (c : Context) (s : State) : SameEvents s (asContext c (afterChoice (beforeStep s))) := by
  obtain ⟨r, rest, h⟩ := evaluateConversions_eq s.script s
  constructor <;> simp [beforeStep, h]

/-- A predicate that reads the event side only and is kept by its four writers (20_memory.md R69): an accepted fire, a
delivery, the end of a handler call, and the construction. -/
structure EventInvariant (P : State → Prop) : Prop where
  congr {s t : State} : SameEvents s t → P s → P t
  accepted {s : State} {b : ButtonId} {l : Bool} : l ≠ s.lvl.get b → P s → P (push ⟨b, l⟩ (setLevel b l s))
  popped {s : State} {e : Event} {rest : List Event} : s.ch = e :: rest → P s →
    P (deliver e { s with ch := rest, disp := .inHandler e })
  returned {s : State} : P s → P { s with disp := .ready }
  constructed {s : State} (h : Nat) : s.handler = none → P s → P { s with
    lvl := ⟨false, false, false, false⟩, ch := [], disp := .ready, handler := some h,
    drops := 0, delivered := [], history := [] }

theorem EventInvariant.of_execEffect {P : State → Prop} (hP : EventInvariant P) {i : Instr} {s t : State}
    (h : ExecEffect i s t) (hs : P s) : P t := by
  cases h with
  | nothing => exact hs
  | pureValue v _ => exact hP.congr (by constructor <;> rfl) hs
  | sent ts v k x _ _ _ _ => exact hP.congr (by constructor <;> rfl) hs
  | stopped op k x _ _ _ => exact hP.congr (by constructor <;> rfl) hs
  | created k _ _ => exact hP.congr (by constructor <;> rfl) hs
  | accepted b l _ _ _ hl => exact hP.accepted hl hs
  | popped e rest _ _ _ _ hch => exact hP.popped hch hs
  | returned _ _ _ => exact hP.returned hs
  | constructed n h _ _ hh => exact hP.constructed h hh hs

/-- No step of a motion engine or of the environment touches the event side. -/
theorem AgentEffect.sameEvents {s t : State} (h : AgentEffect s t) : SameEvents s t := by
  cases h with
  | motionEnded => constructor <;> simp
  | chipStepped r => constructor <;> simp
  | _ => constructor <;> rfl

/-- Every step keeps an invariant of the event side: after the choice, an instruction's or an agent's effect. -/
theorem EventInvariant.of_step {P : State → Prop} (hP : EventInvariant P) {s t : State} (h : step s = .next t)
    (hs : P s) : P t := by
  rcases step_effect h with ⟨c, i, he⟩ | ⟨c, ha⟩
  · exact hP.of_execEffect he (hP.congr (sameEvents_choice c s) hs)
  · exact hP.congr ha.sameEvents (hP.congr (sameEvents_choice c s) hs)

/-! ### The level table and the accepted transitions -/

/-- A push records its event as accepted, whether or not the channel had room. -/
theorem push_history (e : Event) (s : State) : ∃ p, (push e s).history = s.history ++ [⟨e, p⟩] := by
  rcases push_cases e s with ⟨-, h⟩ | ⟨-, h⟩ <;> exact ⟨_, by rw [h]⟩

@[simp] theorem levelsOf_append_self (b : ButtonId) (l p : Bool) (h : List Accepted) :
    levelsOf b (h ++ [⟨⟨b, l⟩, p⟩]) = levelsOf b h ++ [l] := by
  simp [levelsOf]

theorem levelsOf_append_of_ne {i b : ButtonId} (hi : i ≠ b) (l p : Bool) (h : List Accepted) :
    levelsOf i (h ++ [⟨⟨b, l⟩, p⟩]) = levelsOf i h := by
  simp [levelsOf, hi.symm]

/-- An alternating sequence goes on with the level that is not its last. -/
theorem alternates_append {b l : Bool} {ls : List Bool} (h : alternates b ls = true) (hl : l ≠ ls.getLastD b) :
    alternates b (ls ++ [l]) = true := by
  induction ls generalizing b with
  | nil => simpa [alternates, Bool.eq_not] using hl
  | cons x xs ih =>
    simp only [alternates, Bool.and_eq_true, List.cons_append] at h ⊢
    obtain ⟨hx, hxs⟩ := h
    exact ⟨hx, ih hxs (List.getLastD_cons ▸ hl)⟩

/-- 10_state.md R38 (b) and (c) for one identity. -/
def LevelCurrent (i : ButtonId) (s : State) : Prop :=
  s.lvl.get i = lastLevel i s.history ∧ alternates false (levelsOf i s.history) = true

/-- The accepted level is not the stored one, which is the last one accepted, so the sequence goes on alternating. -/
theorem levelCurrent_accepted {b : ButtonId} {l : Bool} {s : State} (hl : l ≠ s.lvl.get b) (i : ButtonId)
    (hs : LevelCurrent i s) : LevelCurrent i (push ⟨b, l⟩ (setLevel b l s)) := by
  obtain ⟨hcur, halt⟩ := hs
  obtain ⟨p, hp⟩ := push_history ⟨b, l⟩ (setLevel b l s)
  rw [setLevel_history] at hp
  unfold LevelCurrent lastLevel
  rw [push_lvl, setLevel_lvl, hp]
  by_cases hi : i = b
  · subst hi
    rw [levelsOf_append_self, PerButton.get_set_self]
    exact ⟨by simp, alternates_append halt fun h => hl (h.trans hcur.symm)⟩
  · rw [levelsOf_append_of_ne hi, PerButton.get_set_of_ne _ _ hi]
    exact ⟨hcur, halt⟩

theorem levelCurrent_invariant (i : ButtonId) : EventInvariant (LevelCurrent i) where
  congr h hs := by
    unfold LevelCurrent
    rw [h.lvl, h.history]
    exact hs
  accepted hl hs := levelCurrent_accepted hl i hs
  popped _ hs := hs
  returned hs := hs
  constructed _ _ _ := by cases i <;> exact ⟨rfl, rfl⟩

/-- Settles O40: for each identity, the stored level and the alternation are one invariant of the event side. -/
theorem levelTableIsKeptCurrent : Obligations.LevelTableIsKeptCurrent := by
  intro s t hcur halt hstep
  have ht (i : ButtonId) : LevelCurrent i t := (levelCurrent_invariant i).of_step hstep ⟨hcur i, halt i⟩
  exact ⟨fun i => (ht i).1, fun i => (ht i).2⟩

/-! ### The channel -/

theorem channelBounded_invariant : EventInvariant ChannelBounded where
  congr h hs := by
    unfold ChannelBounded
    rw [h.ch, h.params]
    exact hs
  accepted {s b l} _ hs := by
    rcases push_cases ⟨b, l⟩ (setLevel b l s) with ⟨hroom, h⟩ | ⟨-, h⟩
    · rw [h]
      simpa using hroom
    · rw [h]
      exact hs
  popped hch hs := by
    simp only [ChannelBounded, hch, List.length_cons] at hs
    exact Nat.le_of_succ_le hs
  returned hs := hs
  constructed _ _ _ := Nat.zero_le _

theorem droppedCount_append_pushed (h : List Accepted) (e : Event) :
    droppedCount (h ++ [⟨e, true⟩]) = droppedCount h := by
  simp [droppedCount]

theorem droppedCount_append_dropped (h : List Accepted) (e : Event) :
    droppedCount (h ++ [⟨e, false⟩]) = droppedCount h + 1 := by
  simp [droppedCount]

theorem dropsCounted_invariant : EventInvariant DropsCounted where
  congr h hs := by
    unfold DropsCounted
    rw [h.drops, h.history]
    exact hs
  accepted {s b l} _ hs := by
    rcases push_cases ⟨b, l⟩ (setLevel b l s) with ⟨-, h⟩ | ⟨-, h⟩
    · rw [h]
      exact hs.trans (droppedCount_append_pushed _ _).symm
    · rw [h]
      exact (congrArg (· + 1) hs).trans (droppedCount_append_dropped _ _).symm
  popped _ hs := hs
  returned hs := hs
  constructed _ _ _ := rfl

/-- Settles O38: the capacity bound and the drop count are invariants of the event side. -/
theorem channelStaysBounded : Obligations.ChannelStaysBounded :=
  fun _ _ hstep => ⟨channelBounded_invariant.of_step hstep, dropsCounted_invariant.of_step hstep⟩

/-! ### The Dispatcher and the configuration -/

theorem handlerRunsOnLast_invariant : EventInvariant HandlerRunsOnLast where
  congr h hs := by
    unfold HandlerRunsOnLast
    rw [h.disp, h.delivered]
    exact hs
  accepted _ hs := by
    unfold HandlerRunsOnLast
    rw [push_disp, push_delivered]
    exact hs
  popped _ _ := List.getLast?_concat
  returned _ := trivial
  constructed _ _ _ := trivial

/-- Settles O41: only a delivery starts a handler call, and it appends that call's event. -/
theorem handlerCallIsOfTheLastEvent : Obligations.HandlerCallIsOfTheLastEvent :=
  fun _ _ hs hstep => handlerRunsOnLast_invariant.of_step hstep hs

/-- The configuration is still that of an earlier state `s₀`. -/
def SameConfiguration (s₀ s : State) : Prop :=
  s.params = s₀.params ∧ ∀ h, s₀.handler = some h → s.handler = some h

theorem sameConfiguration_invariant (s₀ : State) : EventInvariant (SameConfiguration s₀) where
  congr h hs := by
    unfold SameConfiguration
    rw [h.params, h.handler]
    exact hs
  accepted _ hs := by
    unfold SameConfiguration
    rw [push_params, push_handler]
    exact hs
  popped _ hs := hs
  returned hs := hs
  constructed _ hnone hs := ⟨hs.1, fun k hk => by simp [hs.2 k hk] at hnone⟩

/-- Settles O46: no writer touches the parameters, and the construction runs only where no handler is registered. -/
theorem configurationNeverChanges : Obligations.ConfigurationNeverChanges :=
  fun s _ hstep => (sameConfiguration_invariant s).of_step hstep ⟨rfl, fun _ hh => hh⟩

/-! ### The frame of a codec operation -/

/-- An operation with a transaction does nothing, makes that transaction, or makes it and marks the stop; the other
effects belong to operations without one. -/
theorem codec_effect {i : Instr} {k : Command} {v : Int} {s t : State} (hk : i.call = some (k, v))
    (h : exec i s = .next t) : t = s ∨ (∃ ts w, t = returnValue w (txn ts s).2) ∨
      (isStop k = true ∧ ∃ op, t = returnValue .nothing (markStop (txn [op] s).2)) := by
  cases exec_effect h with
  | nothing => exact .inl rfl
  | sent ts w _ _ _ _ _ _ => exact .inr (.inl ⟨ts, w, rfl⟩)
  | stopped op _ _ hk' hs _ =>
    cases hk'.symm.trans hk
    exact .inr (.inr ⟨hs, op, rfl⟩)
  | pureValue _ hnone => simp [hk] at hnone
  | created _ hnone _ => simp [hk] at hnone
  | accepted _ _ hi _ _ _ => simp [hi, Instr.call] at hk
  | popped _ _ hi _ _ _ _ => simp [hi, Instr.call] at hk
  | returned hi _ _ => simp [hi, Instr.call] at hk
  | constructed _ _ hi _ _ => simp [hi, Instr.call] at hk

/-- Settles O24: a transaction leaves the block alone, and marking the stop sets the ghost bit only. -/
theorem codecLeavesTheBlockAlone : Obligations.CodecLeavesTheBlockAlone := by
  intro i k v s t hk h
  rcases codec_effect hk h with rfl | ⟨ts, w, rfl⟩ | ⟨hs, op, rfl⟩
  · simp [SameBlock]
  · simp [SameBlock]
  · simp [SameBlock, hs]

/-! ### The reset state -/

/-- Settles O44: the parameters are the reference ones, and with nothing accepted, delivered or sent every invariant
holds at once. -/
theorem resetState : Obligations.ResetState :=
  ⟨fun i => by cases i <;> rfl, rfl, rfl, rfl, rfl, rfl, referenceParams_wf, ⟨rfl, rfl, rfl⟩,
    Nat.zero_le _, rfl, rfl, fun i => by cases i <;> rfl, fun i => by cases i <;> rfl, trivial,
    nofun, ⟨List.nodup_nil, nofun⟩, nofun, nofun, rfl⟩

end Sys2Proof.Machine

namespace Sys2Proof

/-! ### Splitting and joining -/

theorem beValue_beBytes (n v : Nat) : beValue (beBytes n v) = v % 256 ^ n := by
  induction n with
  | zero => simp [beBytes, beValue, Nat.mod_one]
  | succ n ih =>
    rw [beBytes, beValue, beBytes_length, BitVec.toNat_ofNat, ih, Nat.mod_pow_succ (x := v), Nat.mul_comm, Nat.add_comm]

theorem beBytes_getD {n k : Nat} (v : Nat) (h : k < n) :
    (beBytes n v).getD k 0 = BitVec.ofNat 8 (v / 256 ^ (n - 1 - k)) := by
  induction n generalizing k with
  | zero => omega
  | succ n ih =>
    cases k with
    | zero => rfl
    | succ k =>
      rw [beBytes, List.getD_cons_succ, ih (by omega), show n + 1 - 1 - (k + 1) = n - 1 - k by omega]

/-- A masked value fits the bytes of its field. -/
theorem mask_mod_bytes (w : Nat) (v : Int) : mask w v % 256 ^ nBytes w = mask w v :=
  Nat.mod_eq_of_lt ((mask_lt w v).trans_le (two_pow_le_bytes w))

/-- Settles O8: by induction on the number of bytes. -/
theorem bigEndianSplitAndJoin : Obligations.BigEndianSplitAndJoin :=
  fun n v => ⟨beBytes_length n v, beValue_beBytes n v, fun _ hk => beBytes_getD v hk⟩

end Sys2Proof

namespace Sys2Proof.Machine

/-! ### The order of the deliveries -/

/-- A push with room appends the event to both sides, one without to neither. -/
theorem deliveredInOrder_push {e : Event} {s : State} (hs : DeliveredInOrder s) :
    DeliveredInOrder (push e s) := by
  rcases push_cases e s with ⟨-, h⟩ | ⟨-, h⟩
  · rw [h]
    simpa [DeliveredInOrder, pushedEvents, ← List.append_assoc] using hs
  · rw [h]
    simpa [DeliveredInOrder, pushedEvents] using hs

theorem deliveredInOrder_invariant : EventInvariant DeliveredInOrder where
  congr h hs := by
    unfold DeliveredInOrder pushedEvents
    rw [h.history, h.delivered, h.ch]
    exact hs
  accepted _ hs := deliveredInOrder_push hs
  popped {s e rest} hch hs := by
    have h : pushedEvents s = s.delivered ++ e :: rest := hch ▸ hs
    exact h.trans (List.append_cons _ _ _)
  returned hs := hs
  constructed _ _ _ := rfl

/-- Settles O39: a push with room appends to both sides, and a delivery moves the head of the channel from one list to
the other. -/
theorem deliveryOrderIsKept : Obligations.DeliveryOrderIsKept :=
  fun _ _ hs hstep => deliveredInOrder_invariant.of_step hstep hs

/-! ### What a step does to the bus and the chip -/

/-- What a step does to the traffic and the chip: nothing, one transaction, or an event inside the reference chip. -/
inductive WireEffect (s t : State) : Prop
  | quiet (hbus : t.bus = s.bus) (hchip : t.chip = s.chip)
  /-- One transaction, with a slot 0 and one byte each way per slot. -/
  | sent (x : Transaction) (free : RefChip) (htx : x.tx ≠ []) (hrx : x.rx.length = x.tx.length)
      (hbus : t.bus = s.bus ++ [x]) (hchip : t.chip = chipAfter s.params.chip free s.chip x.tx)
  /-- The reference chip ends a motion. -/
  | ended (q : RefChip) (hs : s.chip = .reference q) (hbus : t.bus = s.bus)
      (hchip : t.chip = .reference { q with moving := false })
  /-- Another event inside the reference chip. -/
  | stirred (q r : RefChip) (hs : s.chip = .reference q) (hbus : t.bus = s.bus)
      (hchip : t.chip = .reference { fitChip s.params.chip r with
        latch := raiseLatch s.params.chip.layout q.latch r.latch })

/-- A state with the traffic and the chip that a transaction leaves; what else the step changed does not matter. -/
theorem wireEffect_txn {s t : State} {ts : List Byte} (hts : ts ≠ []) (hbus : t.bus = (txn ts s).2.bus)
    (hchip : t.chip = (txn ts s).2.chip) : WireEffect s t :=
  .sent ⟨s.ctx, ts, (txn ts s).1⟩ _ hts (txn_answers_length ts s) hbus hchip

theorem ExecEffect.wireEffect {i : Instr} {s t : State} (h : ExecEffect i s t) : WireEffect s t := by
  cases h with
  | sent ts v k x hts _ _ _ => exact wireEffect_txn hts rfl rfl
  | stopped op k x _ _ _ => exact wireEffect_txn (List.cons_ne_nil op []) rfl rfl
  | accepted b l _ _ _ _ => exact .quiet (by simp) (by simp)
  | _ => exact .quiet rfl rfl

theorem wireEffect_motionComplete (s : State) : WireEffect s (motionComplete s) := by
  unfold motionComplete
  split
  · exact .quiet rfl rfl
  · next q hq => exact .ended q hq rfl rfl

theorem wireEffect_chipStep (r : RefChip) (s : State) : WireEffect s (chipStep r s) := by
  unfold chipStep
  split
  · exact .quiet rfl rfl
  · next q hq => exact .stirred q r hq rfl rfl

theorem AgentEffect.wireEffect {s t : State} (h : AgentEffect s t) : WireEffect s t := by
  cases h with
  | sought m x ts _ _ _ hts => exact wireEffect_txn hts rfl rfl
  | polledBusy ts hts => exact wireEffect_txn hts rfl rfl
  | polledEnd m x ts _ _ hts => exact wireEffect_txn hts rfl rfl
  | motionEnded => exact wireEffect_motionComplete s
  | chipStepped r => exact wireEffect_chipStep r s
  | _ => exact .quiet rfl rfl

theorem WireEffect.congr {s s' t : State} (hp : s'.params = s.params) (hb : s'.bus = s.bus) (hc : s'.chip = s.chip)
    (h : WireEffect s' t) : WireEffect s t := by
  cases h with
  | quiet hbus hchip => exact .quiet (hbus.trans hb) (hchip.trans hc)
  | sent x free htx hrx hbus hchip => exact .sent x free htx hrx (hb ▸ hbus) (hp ▸ hc ▸ hchip)
  | ended q hs hbus hchip => exact .ended q (hc ▸ hs) (hbus.trans hb) hchip
  | stirred q r hs hbus hchip => exact .stirred q r (hc ▸ hs) (hbus.trans hb) (hp ▸ hchip)

/-- Evaluating the conversions laid down, choosing the step and its context leave the traffic and the chip alone. -/
theorem step_wireEffect {s t : State} (h : step s = .next t) : WireEffect s t := by
  obtain ⟨r, rest, hb⟩ := evaluateConversions_eq s.script s
  have before (c : Context) (h : WireEffect (asContext c (afterChoice (beforeStep s))) t) : WireEffect s t :=
    h.congr (by simp [beforeStep, hb]) (by simp [beforeStep, hb]) (by simp [beforeStep, hb])
  rcases step_effect h with ⟨c, i, he⟩ | ⟨c, ha⟩
  · exact before c he.wireEffect
  · exact before c ha.wireEffect

theorem WireEffect.keeps_busWellFormed {s t : State} (h : WireEffect s t) (hs : BusWellFormed s) : BusWellFormed t := by
  unfold BusWellFormed
  cases h with
  | quiet hbus _ => rwa [hbus]
  | sent x _ htx hrx hbus _ =>
    rw [hbus, List.forall_mem_append, List.forall_mem_singleton]
    exact ⟨hs, htx, hrx⟩
  | ended _ _ hbus _ => rwa [hbus]
  | stirred _ _ _ hbus _ => rwa [hbus]

theorem fitRegs_wf (c : ChipConst) (f : PerReg Nat) : regFileWf c (fitRegs c f) = true :=
  (regFileWf_iff c _).mpr fun r => by
    rw [fitRegs_get]
    exact mask_lt _ _

/-- The widths are those of the state before: the parameters are not part of the wire. -/
theorem WireEffect.keeps_chipOk {s t : State} (h : WireEffect s t) (hs : ChipWellFormed s) :
    chipOk s.params.chip t.chip = true := by
  cases h with
  | quiet _ hchip => rwa [hchip]
  | sent _ _ _ _ _ hchip => exact hchip ▸ chipAfter_ok _ _ _ _ hs
  | ended q hq _ hchip =>
    rw [ChipWellFormed, hq] at hs
    exact hchip ▸ hs
  | stirred _ r _ _ hchip => exact hchip ▸ fitRegs_wf _ r.regs

/-- Settles O43: a transaction is recorded with one byte each way per slot, and commands and events inside the chip
write masked values. -/
theorem busAndChipStayWellFormed : Obligations.BusAndChipStayWellFormed := by
  intro s t hstep
  have h := step_wireEffect hstep
  refine ⟨h.keeps_busWellFormed, fun hs => ?_⟩
  rw [ChipWellFormed, (configurationNeverChanges s t hstep).1]
  exact h.keeps_chipOk hs

/-! ### Who writes the event side -/

/-- Settles O45: of the effects of an instruction only an accepted fire and a delivery write there, beside the
construction. -/
theorem singleWriters : Obligations.SingleWriters := by
  intro i s t h hreg
  cases exec_effect h with
  | accepted b l hi hc _ _ =>
    refine ⟨fun b' hb => ?_, fun hch => .inl ⟨b, l, hi, hc, ?_⟩, fun hd => absurd (by simp) hd⟩
    · rw [push_lvl, setLevel_lvl] at hb
      obtain rfl : b' = b := by_contra fun hne => hb (PerButton.get_set_of_ne _ _ hne)
      exact ⟨l, hi, hc⟩
    · rcases push_cases ⟨b, l⟩ (setLevel b l s) with ⟨-, hp⟩ | ⟨-, hp⟩
      · rw [hp]; rfl
      · rw [hp] at hch; exact absurd rfl hch
  | popped e rest hi hc _ _ hs =>
    exact ⟨fun _ hb => absurd rfl hb, fun _ => .inr ⟨hi, hc, e, hs⟩, fun _ => ⟨hi, hc, e, by simp [hs], rfl⟩⟩
  | constructed _ n hi _ _ => exact absurd hi (hreg n)
  | _ => exact ⟨fun _ hb => absurd rfl hb, fun hch => absurd rfl hch, fun hd => absurd rfl hd⟩

/-! ### The oracle -/

theorem spareBytes_eq_take {n : Nat} {s : State} (h : n ≤ s.answers.length) :
    spareBytes n s = s.answers.take n := by
  refine List.ext_getElem (by simp [h]) fun k hk _ => ?_
  have hk : k < s.answers.length := by rw [spareBytes_length] at hk; omega
  simp [spareBytes, hk]

theorem txn_oracle (ts : List Byte) {s : State} (h : s.chip = .oracle) :
    (txn ts s).1 = spareBytes ts.length s := by
  simp only [txn, h, chipAnswers]

/-- Settles O25: the oracle sends the spare bytes, which are the answers laid down while they last. -/
theorem oracleBytesAreTheEnvironments : Obligations.OracleBytesAreTheEnvironments :=
  fun s ts => ⟨txn_answers_length ts s, fun hc hn => (txn_oracle ts hc).trans (spareBytes_eq_take hn)⟩

/-! ### A codec operation on the reference chip -/

/-- The transaction of a command, with MARK_STOP for a stop-class one (43_motion_engine.md R222). -/
def afterCommand (k : Command) (payload : List Byte) (s : State) : State :=
  bif isStop k then markStop (txn (commandByte s.params.chip k :: payload) s).2
  else (txn (commandByte s.params.chip k :: payload) s).2

/-- The payload of a command that carries the field `v` is the masked field (30_encoding.md R80). -/
def IsPayload (c : ChipConst) (k : Command) (v : Int) (payload : List Byte) : Prop :=
  k.format = .fw → payload = beBytes (k.slots c) (mask (k.width c) v)

/-- Behind the gate, a codec operation makes the transaction of its command and hands a value back. -/
theorem codec_body {i : Instr} {k : Command} {v : Int} (hk : i.call = some (k, v)) (s : State) :
    ∃ f : State → State, exec i s = gated f s ∧
      ∃ payload w, f s = returnValue w (afterCommand k payload s) ∧ IsPayload s.params.chip k v payload := by
  unfold exec
  cases i
  -- only the operations with a command remain, each with the gated body of its arm
  all_goals cases hk
  all_goals refine ⟨_, rfl, ?_⟩
  all_goals refine ⟨_, _, rfl, ?_⟩
  all_goals simp [IsPayload, Command.format, Command.slots, Command.width]

theorem IsPayload.beValue_eq {c : ChipConst} {k : Command} {v : Int} {payload : List Byte}
    (h : IsPayload c k v payload) (hf : k.format = .fw) : beValue payload = mask (k.width c) v := by
  rw [h hf, beValue_beBytes]
  exact mask_mod_bytes _ v

/-- The context of `s` has completed a call that leaves the reference chip at `q`, and may call again. -/
structure CallLeaves (s t : State) (q : RefChip) : Prop where
  params : t.params = s.params
  ctx : t.ctx = s.ctx
  mayCall : MayCall t
  chip : t.chip = .reference q

/-- Marking the stop changes no caller, so it does not change who may call. -/
theorem callGate_markStop (s : State) : callGate (markStop s) = callGate s := by
  simp [callGate, suspended, Function.comp_def]

theorem callLeaves_afterCommand (k : Command) (payload : List Byte) (w : Value) {s : State} {q : RefChip}
    (hg : MayCall s) (hu : s.params.chip.unambiguous = true) (hc : s.chip = .reference q) :
    CallLeaves s (returnValue w (afterCommand k payload s))
      (refReact s.params.chip (Config.freeChip s.tick) k (beValue payload) q) := by
  have hchip : (txn (commandByte s.params.chip k :: payload) s).2.chip =
      .reference (refReact s.params.chip (Config.freeChip s.tick) k (beValue payload) q) := by
    simp only [txn_chip, hc, chipAfter, commandOf_commandByte hu]
  unfold afterCommand
  cases isStop k with
  | true => exact ⟨rfl, rfl, (callGate_markStop (txn _ s).2).trans hg, hchip⟩
  | false => exact ⟨rfl, rfl, hg, hchip⟩

/-- A codec operation that may run gives the reference chip its command, with the masked field where there is one. -/
theorem exec_codec_reference {i : Instr} {k : Command} {v : Int} {s : State} {q : RefChip}
    (hk : i.call = some (k, v)) (hg : MayCall s) (hu : s.params.chip.unambiguous = true)
    (hc : s.chip = .reference q) :
    ∃ t raw, exec i s = .next t ∧ (k.format = .fw → raw = mask (k.width s.params.chip) v) ∧
      CallLeaves s t (refReact s.params.chip (Config.freeChip s.tick) k raw q) := by
  obtain ⟨f, he, payload, w, hf, hp⟩ := codec_body hk s
  exact ⟨_, beValue payload, he.trans (gated_run hg), hp.beValue_eq, hf ▸ callLeaves_afterCommand k payload w hg hu hc⟩

theorem exec_setParam_reference (r : Reg) (v : Int) {s : State} {q : RefChip} (hg : MayCall s)
    (hu : s.params.chip.unambiguous = true) (hc : s.chip = .reference q) :
    ∃ t, exec (.setParam r v) s = .next t ∧
      CallLeaves s t { q with regs := q.regs.set r (mask (s.params.chip.width r) v) } := by
  obtain ⟨t, raw, he, hraw, ht⟩ := exec_codec_reference (i := .setParam r v) rfl hg hu hc
  have hmask : mask (s.params.chip.width r) raw = mask (s.params.chip.width r) v :=
    (hraw rfl).symm ▸ mask_of_lt (mask_lt _ v)
  exact ⟨t, he, hmask ▸ ht⟩

/-! ### The response of the reference chip -/

/-- The last `n` of `n + 1` slots are the response. -/
theorem drop_refBytes {spare response : List Byte} (h : spare.length = response.length + 1) :
    (refBytes spare response).drop 1 = response := by
  have hs : (spare.take 1).length = 1 := by simp [h]
  rw [refBytes, h, Nat.add_sub_cancel_left, List.take_of_length_le (by simp [h, Nat.add_comm])]
  exact List.drop_left' hs

theorem chipSends_getParamBytes {s : State} {q : RefChip} (hu : s.params.chip.unambiguous = true)
    (hc : s.chip = .reference q) (r : Reg) :
    chipSends s (getParamBytes s.params.chip r) = refBytes (spareBytes (nBytes (s.params.chip.width r) + 1) s)
      (beBytes (nBytes (s.params.chip.width r)) (refRead s.params.chip q r)) := by
  have hop : commandOf s.params.chip (s.params.chip.opcGetParam ||| (s.params.chip.regs.get r).addr.setWidth 8) =
      .ok (.getParam r) := commandOf_commandByte hu (.getParam r)
  simp only [chipSends, getParamBytes, hc, chipAnswers, hop, List.length_cons, List.length_replicate]
  rfl

/-- The response of a register read holds what the chip finds in the register, cut to its bytes (20_memory.md R56). -/
theorem responseOf_reference {s : State} {q : RefChip} (hu : s.params.chip.unambiguous = true)
    (hc : s.chip = .reference q) (r : Reg) :
    responseOf s r = refRead s.params.chip q r % 256 ^ nBytes (s.params.chip.width r) := by
  rw [responseOf, chipSends_getParamBytes hu hc, drop_refBytes (by simp), List.take_of_length_le (by simp),
    beValue_beBytes]

theorem refRead_of_ne_status (c : ChipConst) (q : RefChip) {r : Reg} (h : r ≠ .status) :
    refRead c q r = q.regs.get r := by
  cases r with
  | status => exact absurd rfl h
  | _ => rfl

/-- A write to a register is seen by a read of no other register, STATUS included (R67). -/
theorem refRead_set_of_ne (c : ChipConst) (q : RefChip) {r r' : Reg} (x : Nat) (h : r' ≠ r) :
    refRead c { q with regs := q.regs.set r x } r' = refRead c q r' := by
  by_cases hs : r' = .status
  · subst hs; rfl
  · simp only [refRead_of_ne_status c _ hs, PerReg.get_set_of_ne _ _ h]

/-- Settles O26: the chip of the next state differs in the written register alone, and a masked value fits its
response. -/
theorem referenceChipHoldsWrites : Obligations.ReferenceChipHoldsWrites := by
  intro s q r v hg hu hc hr
  obtain ⟨t, he, ht⟩ := exec_setParam_reference r v hg hu hc
  have hread (r' : Reg) := responseOf_reference (ht.params ▸ hu) ht.chip r'
  simp only [ht.params] at hread
  refine ⟨t, he, ?_, fun r' hne => ?_⟩
  · rw [hread, refRead_of_ne_status _ _ hr, PerReg.get_set_self, mask_mod_bytes]
  · rw [hread, refRead_set_of_ne _ _ _ hne, responseOf_reference hu hc]

/-! ### The status word -/

theorem statusBit_of_ne {k j : Nat} (h : k ≠ j) : (statusBit j).getLsbD k = false := by
  have hpow : statusBit j = BitVec.twoPow 16 j := rfl
  simp [hpow, BitVec.getLsbD_twoPow, h.symm]

/-- A latched bit of the assembled word is the bit of LATCH (R67). -/
theorem refStatus_latched {l : StatusLayout} (h : l.wf = true) {k : Nat} (hk : l.latched.getLsbD k = true)
    (q : RefChip) : (refStatus l q).getLsbD k = q.latch.getLsbD k := by
  obtain ⟨_, _, _, _, _, _, _, hbusy, _⟩ := of_decide_eq_true h
  have hb : (statusBit l.busyBit).getLsbD k = false := statusBit_of_ne fun e => by simp [e, hbusy] at hk
  simp only [refStatus, BitVec.getLsbD_or, BitVec.getLsbD_and, BitVec.getLsbD_not, hk, hb]
  split <;> simp [hb]

/-- A bit that is not latched does not depend on LATCH (R67). -/
theorem refStatus_unlatched {l : StatusLayout} {k : Nat} (hk : l.latched.getLsbD k = false) (q : RefChip)
    (x : BitVec 16) : (refStatus l { q with latch := x }).getLsbD k = (refStatus l q).getLsbD k := by
  simp only [refStatus, BitVec.getLsbD_or, BitVec.getLsbD_and, hk, Bool.and_false]

theorem faults_of_inactive {l : StatusLayout} (h : l.wf = true) (q : RefChip) :
    (snapshotOf l (refStatus l { q with latch := inactiveLatch l })).faults = 0#16 := by
  refine BitVec.eq_of_getLsbD_eq fun k _ => ?_
  simp only [snapshotOf, BitVec.getLsbD_and, BitVec.getLsbD_xor, BitVec.getLsbD_zero]
  cases hk : l.latched.getLsbD k with
  | false => simp
  | true => simp [refStatus_latched h hk, inactiveLatch, hk]

/-- Two words that agree in the bits that are not latched decode to the same fields but the flags, where the three fields
of notes/assumptions/17 (bits 15, 6, 5 and 2) are not latched. -/
theorem snapshotOf_of_agree {l : StatusLayout} (h : l.wf = true) (hlive : l.latched &&& 0x8064#16 = 0#16)
    {x y : BitVec 16} (hxy : ∀ k, l.latched.getLsbD k = false → x.getLsbD k = y.getLsbD k) :
    snapshotOf l x = { snapshotOf l y with faults := (snapshotOf l x).faults } := by
  obtain ⟨_, _, _, _, _, _, hhiz, hbusy, hdir⟩ := of_decide_eq_true h
  have hbit {k : Nat} (hk : (0x8064#16).getLsbD k = true) : x.getLsbD k = y.getLsbD k := by
    refine hxy k ?_
    simpa [hk] using congrArg (fun w : BitVec 16 => w.getLsbD k) hlive
  have hmot : x.extractLsb' 5 2 = y.extractLsb' 5 2 := by
    refine BitVec.eq_of_getLsbD_eq fun k hk => ?_
    rw [BitVec.getLsbD_extractLsb', BitVec.getLsbD_extractLsb', hbit (k := 5 + k) ?_]
    interval_cases k <;> rfl
  simp only [snapshotOf, hxy _ hhiz, hxy _ hbusy, hxy _ hdir, hbit (k := 2) rfl, hbit (k := 15) rfl, hmot]

/-- The body of a status read by the command `k` (41_command_codec.md R170, R171). -/
def statusReadBody (k : Command) (s : State) : State :=
  returnValue (.status (readStatus (commandByte s.params.chip k) s).1) (readStatus (commandByte s.params.chip k) s).2

/-- A status read that may run hands back the snapshot of the assembled word. -/
theorem exec_statusRead_reference {i : Instr} {k : Command} {s : State} {q : RefChip} (hg : MayCall s)
    (hu : s.params.chip.unambiguous = true) (hc : s.chip = .reference q) (hk : isStatusRead s.params.chip k)
    (hi : exec i s = gated (statusReadBody k) s) :
    ∃ t raw, exec i s = .next t ∧
      t.ret = some ⟨s.ctx, .status (snapshotOf s.params.chip.layout (refStatus s.params.chip.layout q))⟩ ∧
      CallLeaves s t (refReact s.params.chip (Config.freeChip s.tick) k raw q) :=
  ⟨_, _, hi.trans (gated_run hg), by rw [statusReadBody, returnValue_ret, readStatus_reference hu hc hk]; rfl,
    rfl, rfl, hg, readStatus_reference_chip k hu hc⟩

theorem exec_getStatus_reference {s : State} {q : RefChip} (hg : MayCall s)
    (hu : s.params.chip.unambiguous = true) (hc : s.chip = .reference q) :
    ∃ t, exec .getStatus s = .next t ∧
      t.ret = some ⟨s.ctx, .status (snapshotOf s.params.chip.layout (refStatus s.params.chip.layout q))⟩ ∧
      CallLeaves s t { q with latch := inactiveLatch s.params.chip.layout } := by
  obtain ⟨t, raw, he⟩ := exec_statusRead_reference (i := .getStatus) hg hu hc (.inl rfl) rfl
  exact ⟨t, he⟩

theorem exec_getStatusNc_reference {s : State} {q : RefChip} (hg : MayCall s)
    (hw : s.params.chip.statusWidthOk = true) (hu : s.params.chip.unambiguous = true)
    (hc : s.chip = .reference q) :
    ∃ t, exec .getStatusNc s = .next t ∧
      t.ret = some ⟨s.ctx, .status (snapshotOf s.params.chip.layout (refStatus s.params.chip.layout q))⟩ ∧
      CallLeaves s t q := by
  obtain ⟨t, raw, he⟩ := exec_statusRead_reference (i := .getStatusNc) hg hu hc (.inr ⟨rfl, hw⟩) rfl
  exact ⟨t, he⟩

/-- An event inside the chip leaves an active flag active (R97). -/
theorem raiseLatch_ne {l : StatusLayout} {k : Nat} {old : BitVec 16} (new : BitVec 16)
    (hk : l.latched.getLsbD k = true) (h : old.getLsbD k ≠ l.activeLow.getLsbD k) :
    (raiseLatch l old new).getLsbD k ≠ l.activeLow.getLsbD k := by
  rw [← bne_iff_ne, raiseLatch_active old new hk, bne_iff_ne.mpr h, Bool.true_or]

/-- R97: a latched bit that a step makes inactive was made so by a clearing read or a RESET_DEVICE. -/
theorem WireEffect.latch_cleared {s t : State} {q r : RefChip} {k : Nat} (h : WireEffect s t)
    (hs : s.chip = .reference q) (ht : t.chip = .reference r) (hk : s.params.chip.layout.latched.getLsbD k = true)
    (hq : q.latch.getLsbD k ≠ s.params.chip.layout.activeLow.getLsbD k)
    (hr : r.latch.getLsbD k = s.params.chip.layout.activeLow.getLsbD k) :
    ∃ x, t.bus = s.bus ++ [x] ∧ (commandSeen s.params.chip x = some .getStatus ∨
      commandSeen s.params.chip x = some .resetDevice) := by
  have hlatch : r.latch ≠ q.latch := fun h => hq (h ▸ hr)
  cases h with
  | quiet _ hchip =>
    cases ht.symm.trans (hchip.trans hs)
    exact absurd rfl hlatch
  | ended q' hs' _ hchip =>
    cases hs.symm.trans hs'
    cases ht.symm.trans hchip
    exact absurd rfl hlatch
  | stirred q' new hs' _ hchip =>
    cases hs.symm.trans hs'
    cases ht.symm.trans hchip
    exact absurd hr (raiseLatch_ne new.latch hk hq)
  | sent x free _ _ hbus hchip =>
    rw [hs, ht] at hchip
    obtain hsame | ⟨op, payload, k', hx, hop, hk'⟩ := chipAfter_latch hchip.symm
    · exact absurd hsame hlatch
    · have hseen : commandSeen s.params.chip x = some k' := by simp only [commandSeen, hx, hop]
      exact ⟨x, hbus, by simpa [hseen] using hk'⟩

/-- Settles O27: the two clearing reads see words that differ in latched bits alone, and in whatever step only a
transaction of one of the two commands clears a flag. -/
theorem referenceChipStatusReads : Obligations.ReferenceChipStatusReads := by
  refine ⟨fun s q hg hw hl hu hc => ⟨?_, ?_⟩, fun s t q r k hs hstep ht => (step_wireEffect hstep).latch_cleared hs ht⟩
  · obtain ⟨t, het, hrt, ht⟩ := exec_getStatus_reference hg hu hc
    obtain ⟨u, heu, hru, -⟩ := exec_getStatus_reference ht.mayCall (ht.params ▸ hu) ht.chip
    rw [ht.params, ht.ctx] at hru
    obtain ⟨_, _, _, _, _, _, hhiz, _, hdir⟩ := of_decide_eq_true hl
    refine ⟨t, u, _, _, het, heu, hrt, hru, refStatus_unlatched hhiz q _, ?_, ?_, faults_of_inactive hl q,
      fun hlive => ?_, ht.chip⟩
    · rw [refStatus_busy hl, refStatus_busy hl]
    · simp only [snapshotOf, refStatus_unlatched hdir]
    · rw [← faults_of_inactive hl q]
      exact snapshotOf_of_agree hl hlive fun k hk => refStatus_unlatched hk q _
  · obtain ⟨t, he, -, ht⟩ := exec_getStatusNc_reference hg hw hu hc
    exact ⟨t, he, ht.chip.trans hc.symm⟩

/-! ### The commands -/

/-- A motion command sets MOVING, a stop-class one clears it, and a HiZ command also raises the live HiZ bit (R67). -/
theorem refReact_motion_or_stop (c : ChipConst) (free : RefChip) {k : Command} (raw : Nat) (q : RefChip)
    (h : isMotion k = true ∨ isStop k = true) :
    refReact c free k raw q = { q with
      moving := isMotion k
      live := if k = .softHiz ∨ k = .hardHiz then q.live ||| statusBit c.layout.hizBit else q.live } := by
  cases k with
  | setParam _ | getParam _ | resetPosition | resetDevice | getStatus => simp [isMotion, isStop] at h
  | _ => rfl

/-- A raised live HiZ bit is decoded as `hiz`. -/
theorem refStatus_hiz {l : StatusLayout} (h : l.wf = true) {q : RefChip} {x : BitVec 16}
    (hq : q.live = x ||| statusBit l.hizBit) : (snapshotOf l (refStatus l q)).hiz = true := by
  obtain ⟨hk, _, _, hb, _, _, hlatched, _, _⟩ := of_decide_eq_true h
  simp only [snapshotOf, refStatus_live hk hlatched hb, hq, BitVec.getLsbD_or, statusBit_self hk, Bool.or_true]

/-- Settles O28: what each command does to the chip, read off `refReact`, and the status and register reads after it. -/
theorem referenceChipCommands : Obligations.ReferenceChipCommands := by
  intro s q hg hw hl hu hc
  refine ⟨fun i k v hk hms => ?_, ?_, ?_, fun g v => ?_, fun g => ?_⟩
  · obtain ⟨t, raw, het, -, ht⟩ := exec_codec_reference hk hg hu hc
    rw [refReact_motion_or_stop _ _ _ _ hms] at ht
    obtain ⟨u, heu, hru, -⟩ := exec_getStatusNc_reference ht.mayCall (ht.params ▸ hw) (ht.params ▸ hu) ht.chip
    rw [ht.params, ht.ctx] at hru
    exact ⟨t, u, _, het, heu, hru, refStatus_busy hl _, fun hz => refStatus_hiz hl (if_pos hz), ht.chip⟩
  · obtain ⟨t, raw, he, -, ht⟩ := exec_codec_reference (i := .resetPosition) rfl hg hu hc
    refine ⟨t, he, ?_, ht.chip⟩
    rw [responseOf_reference (ht.params ▸ hu) ht.chip, refRead_of_ne_status _ _ (by decide), refReact,
      PerReg.get_set_self, Nat.zero_mod]
  · obtain ⟨t, raw, he, -, ht⟩ := exec_codec_reference (i := .resetDevice) rfl hg hu hc
    exact ⟨t, _, he, ht.chip, rfl, rfl, rfl, fun g => (fitRegs_get _ _ g).trans (mask_natCast _ _)⟩
  · obtain ⟨t, he, ht⟩ := exec_setParam_reference g v hg hu hc
    exact ⟨t, he, ht.chip⟩
  · obtain ⟨t, raw, he, -, ht⟩ := exec_codec_reference (i := .getParam g) rfl hg hu hc
    exact ⟨t, he, ht.chip.trans hc.symm⟩

end Sys2Proof.Machine

namespace Sys2Proof

/-! ### What a field carries -/

/-- R91, R161 (b): a value in the signed range is read back from its field by a signed reading. -/
theorem sext_mask {w : Nat} {v : Int} (hw : 0 < w) (hlo : -(2 ^ (w - 1) : Nat) ≤ v) (hhi : v < (2 ^ (w - 1) : Nat)) :
    sext w (mask w v) = v := by
  have hpow : 2 ^ w = 2 * 2 ^ (w - 1) := by rw [← pow_succ', Nat.sub_add_cancel hw]
  have hcast := mask_cast w v
  rw [hpow] at hcast
  unfold sext
  rw [hpow]
  obtain hneg | hpos := lt_or_ge v 0
  · have hmod : v % ((2 * 2 ^ (w - 1) : Nat) : Int) = v + ((2 * 2 ^ (w - 1) : Nat) : Int) := by
      rw [← Int.add_emod_right, Int.emod_eq_of_lt] <;> omega
    rw [if_pos (by omega)]
    omega
  · have hmod : v % ((2 * 2 ^ (w - 1) : Nat) : Int) = v := Int.emod_eq_of_lt hpos (by omega)
    rw [if_neg (by omega)]
    omega

/-- R91: an operand that fits its field is what the receiver reads from it. -/
theorem fieldValue_mask {signed : Bool} {w : Nat} {v : Int} (hw : 0 < w) (hv : fitsField signed w v = true) :
    fieldValue signed w (mask w v) = v := by
  rw [fieldValue, mask_of_lt (mask_lt w v)]
  cases signed with
  | true =>
    obtain ⟨hlo, hhi⟩ := of_decide_eq_true hv
    exact sext_mask hw hlo hhi
  | false =>
    obtain ⟨hlo, hhi⟩ := of_decide_eq_true hv
    exact (mask_cast w v).trans (Int.emod_eq_of_lt hlo hhi)

/-! ### The opcode map -/

/-- A byte is its part under a mask with the rest put back. -/
theorem and_not_or_and (b x : Byte) : (b &&& ~~~x) ||| (b &&& x) = b := by
  rw [← BitVec.and_or_distrib_left, BitVec.or_comm, BitVec.or_not_self, BitVec.and_allOnes]

/-- R87: the direction of a byte is its bit at the place of the direction bit. -/
theorem dirBit_dirOfByte (c : ChipConst) (b : Byte) : dirBit c (dirOfByte c b) = b &&& dirBit c .forward := by
  have hpow : dirBit c .forward = BitVec.twoPow 8 c.dirBitPos := rfl
  rw [hpow, BitVec.and_twoPow, dirOfByte]
  split <;> rfl

/-- R87: a byte that matches a base without its direction bit is that base with the direction filled in. -/
theorem eq_or_dirBit {c : ChipConst} {b opc : Byte} (h : b &&& dirMask c = opc) :
    b = opc ||| dirBit c (dirOfByte c b) := by
  rw [dirBit_dirOfByte, ← h, dirMask, and_not_or_and]

/-- R86: the five address bits of a byte are its bits outside the mask `0xE0`. -/
theorem setWidth_addrBits (b : Byte) : (b.extractLsb' 0 5).setWidth 8 = b &&& ~~~0xE0#8 := by
  refine BitVec.eq_of_toNat_eq ?_
  have hmask : b.toNat &&& 31 = b.toNat % 32 := Nat.and_two_pow_sub_one_eq_mod _ 5
  simp [hmask]
  omega

theorem addr_of_regOfAddr {c : ChipConst} {a : BitVec 5} {r : Reg} (h : regOfAddr c a = some r) :
    (c.regs.get r).addr = a := by
  have := List.find?_some h
  exact eq_of_beq this

/-- R86: a byte that matches a base of mask `0xE0` is that base with the address of its register filled in. -/
theorem eq_or_addrByte {c : ChipConst} {b opc : Byte} {r : Reg} (h : b &&& 0xE0#8 = opc)
    (hr : regOfAddr c (b.extractLsb' 0 5) = some r) : b = opc ||| addrByte c r := by
  rw [addrByte, addr_of_regOfAddr hr, setWidth_addrBits, ← h, BitVec.or_comm, and_not_or_and]

/-- R92, R93: whatever the opcode map, slot 0 selects a command only if it is that command's opcode byte. -/
theorem eq_commandByte_of_commandOf {c : ChipConst} {b : Byte} {k : Command} (h : commandOf c b = .ok k) :
    b = commandByte c k := by
  unfold commandOf at h
  split at h
  next k' hfind =>
    cases h
    have hbyte := List.find?_some hfind
    exact (eq_of_beq hbyte).symm
  next =>
    split_ifs at h with hrun hmove hgoToDir hset hget
    · cases h; exact eq_or_dirBit hrun
    · cases h; exact eq_or_dirBit hmove
    · cases h; exact eq_or_dirBit hgoToDir
    · split at h <;> cases h
      exact eq_or_addrByte hset ‹_›
    · split at h <;> cases h
      exact eq_or_addrByte hget ‹_›

/-- Settles O4: no opcode map accepts a foreign byte, the reference map among them. -/
theorem noForeignOpcodeByteIsAccepted : Obligations.NoForeignOpcodeByteIsAccepted :=
  fun _ _ h => eq_commandByte_of_commandOf h

/-! ### The step-mode code and the event word -/

/-- R99: the code of a step mode is the logarithm of its divisor. -/
theorem divisor_eq_two_pow (d : StepMode) : d.divisor = 2 ^ encodeStepMode d := by
  cases d <;> rfl

theorem encodeStepMode_lt (d : StepMode) : encodeStepMode d < 8 := by
  cases d <;> decide

@[simp] theorem decodeStepMode_encodeStepMode (d : StepMode) : decodeStepMode (encodeStepMode d) = d := by
  cases d <;> rfl

/-- R99: the decoder of a step mode reads the three low bits. -/
@[simp] theorem encodeStepMode_decodeStepMode (r : Nat) : encodeStepMode (decodeStepMode r) = r % 8 := by
  have hlt : r % 8 < 8 := Nat.mod_lt _ (by decide)
  unfold decodeStepMode
  interval_cases r % 8 <;> rfl

@[simp] theorem Event.ofWord_toWord (e : Event) : Event.ofWord e.toWord = e := by
  obtain ⟨id, level⟩ := e
  cases id <;> cases level <;> rfl

theorem Event.toWord_ofWord (w : BitVec 3) : (Event.ofWord w).toWord = w := by
  revert w
  decide

/-- Settles O6: the codes mode by mode, the words event by event. -/
theorem stepModeCodesAndEventWords : Obligations.StepModeCodesAndEventWords := by
  refine ⟨rfl, fun d => ⟨encodeStepMode_lt d, divisor_eq_two_pow d, decodeStepMode_encodeStepMode d⟩, fun r => ?_,
    fun e => ?_, Event.ofWord_toWord, Event.toWord_ofWord⟩
  · rw [divisor_eq_two_pow, encodeStepMode_decodeStepMode]
  · obtain ⟨id, level⟩ := e
    cases id <;> cases level <;> rfl

end Sys2Proof

namespace Sys2Proof.Machine

/-! ### Decoding what an operation sends -/

/-- R81: a command of format `F0` has slot 0 only. -/
theorem slots_of_format_f0 {k : Command} (h : k.format = .f0) (c : ChipConst) : k.slots c = 0 := by
  have hwidth : k.width c = 0 := by cases k <;> cases h <;> rfl
  rw [Command.slots, hwidth, nBytes]

/-- R84, R85: the opcode byte is followed by one byte per slot, which carry the masked field where there is one. -/
theorem encodeCommand_eq_cons (c : ChipConst) (k : Command) (v : Int) :
    ∃ payload, encodeCommand c k v = commandByte c k :: payload ∧ payload.length = k.slots c ∧
      IsPayload c k v payload := by
  refine ⟨_, rfl, ?_⟩
  unfold IsPayload
  cases hf : k.format with
  | f0 => simp [slots_of_format_f0 hf c]
  | fw => simp
  | fr => simp

/-- Only a command of format `FW` carries a field from the block to the chip (R80). -/
theorem toInstr_of_format_ne {k : Command} (h : k.format ≠ .fw) (c : ChipConst) (x y : Nat) :
    k.toInstr c x = k.toInstr c y := by
  cases k with
  | setParam | run | move | goTo | goToDir => exact absurd rfl h
  | _ => rfl

/-- R93: slot 0 tells the decoder where the transaction ends. -/
theorem decode_cons {c : ChipConst} (hc : c.unambiguous = true) (k : Command) {payload : List Byte}
    (hp : payload.length = k.slots c) (rest : List Byte) :
    decode c (commandByte c k :: payload ++ rest) = .ok (k.toInstr c (beValue payload), rest) := by
  rw [List.cons_append, decode, commandOf_commandByte hc]
  simp [← hp]

theorem decode_encodeCommand {c : ChipConst} (hc : c.unambiguous = true) (k : Command) (v : Int) (rest : List Byte) :
    decode c (encodeCommand c k v ++ rest) = .ok (k.toInstr c (mask (k.width c) v), rest) := by
  obtain ⟨payload, hbytes, hlength, hfield⟩ := encodeCommand_eq_cons c k v
  rw [hbytes, decode_cons hc k hlength]
  by_cases hf : k.format = .fw
  · rw [hfield.beValue_eq hf]
  · rw [toInstr_of_format_ne hf]

/-! ### The operation a command spells -/

theorem toInstr_setParam {c : ChipConst} (hc : c.widthsOk = true) {r : Reg} {v : Int} (hv : fitsReg c r v = true) :
    (Command.setParam r).toInstr c (mask (c.width r) v) = setterOf r v :=
  congrArg (setterOf r) (fieldValue_mask (c.width_bounds hc r).1 hv)

/-- A step mode's code is written and read as that mode (R99), where its register has room for the code. -/
theorem toInstr_setStepMode {c : ChipConst} (hc : c.widthsOk = true) {d : StepMode}
    (hd : (Instr.setStepMode d).wf c = true) :
    (Command.setParam .stepMode).toInstr c (mask (c.width .stepMode) (encodeStepMode d : Int)) = .setStepMode d := by
  obtain ⟨hsigned, hwidth⟩ : (c.regs.get .stepMode).signed = false ∧ 3 ≤ c.width .stepMode := by
    simpa [Instr.wf] using hd
  have hlt := encodeStepMode_lt d
  have hpow : 2 ^ 3 ≤ 2 ^ c.width .stepMode := Nat.pow_le_pow_right (by decide) hwidth
  have hfits : fitsReg c .stepMode (encodeStepMode d : Int) = true := by
    rw [fitsReg, hsigned]
    exact decide_eq_true ⟨by omega, by unfold ChipConst.width at hpow; omega⟩
  rw [toInstr_setParam hc hfits, setterOf, if_pos (by omega), Int.toNat_natCast, decodeStepMode_encodeStepMode]

/-- R91, R93: a command with the field of an operation spells that operation, where the operand fits. -/
theorem toInstr_of_call {c : ChipConst} (hc : c.widthsOk = true) {i : Instr} {k : Command} {v : Int}
    (hk : i.call = some (k, v)) (hi : i.wf c = true) : k.toInstr c (mask (k.width c) v) = i.canon := by
  -- only the operations with a command remain, each with its command and its field
  cases i <;> cases hk
  case setParam => exact toInstr_setParam hc hi
  case run d => exact congrArg (Instr.run d) (fieldValue_mask (c.width_bounds hc _).1 hi)
  case move d => exact congrArg (Instr.move d) (fieldValue_mask (c.width_bounds hc _).1 hi)
  case goTo => exact congrArg Instr.goTo (fieldValue_mask (c.width_bounds hc _).1 hi)
  case goToDir d => exact congrArg (Instr.goToDir d) (fieldValue_mask (c.width_bounds hc _).1 hi)
  case setStepMode => exact toInstr_setStepMode hc hi
  case setAbsPos | setMark | setSpeed | setAcc | setDec | setMaxSpeed | setMinSpeed | setFsSpd | setStatus =>
    exact toInstr_setParam hc hi
  all_goals rfl

theorem encode_eq_some {c : ChipConst} {i : Instr} {bs : List Byte} (h : encode c i = some bs) :
    ∃ k v, i.call = some (k, v) ∧ bs = encodeCommand c k v := by
  unfold encode at h
  split at h
  next k v hk => exact ⟨k, v, hk, (Option.some.inj h).symm⟩
  next => cases h

/-- Settles O2: the decoder finds the command of slot 0 and its field, and the command with this field spells the
operation. -/
theorem decodeOfEncodeIsTheOperation : Obligations.DecodeOfEncodeIsTheOperation := by
  intro c i bs rest hwidths hmap hi hbs
  obtain ⟨k, v, hk, rfl⟩ := encode_eq_some hbs
  rw [decode_encodeCommand hmap, toInstr_of_call hwidths hk hi]

/-- R83, R90: a command's field is as wide as a register, or has the 16 bits of the status word, or there is none. -/
theorem commandWidth_le {c : ChipConst} (h : ∀ r, c.width r ≤ 32) (k : Command) : k.width c ≤ 32 := by
  cases k with
  | setParam | getParam | run | move | goTo | goToDir => exact h _
  | _ => simp [Command.width]

/-- Settles O5: the slots of the command, whose field is at most 32 bits wide. -/
theorem transactionHasOnePlusNSlots : Obligations.TransactionHasOnePlusNSlots := by
  intro c i k v bs hwidths hk hbs
  obtain ⟨k', v', hk', rfl⟩ := encode_eq_some hbs
  obtain ⟨rfl, rfl⟩ : k' = k ∧ v' = v := by simpa using hk'.symm.trans hk
  obtain ⟨payload, hbytes, hlength, -⟩ := encodeCommand_eq_cons c k' v'
  have hslots : k'.slots c = (k'.width c + 7) / 8 := rfl
  exact ⟨by rw [hbytes, List.length_cons, hlength, hslots, Nat.add_comm],
    nBytes_le_four (commandWidth_le hwidths k')⟩

/-- The whole transaction of an operation decodes to it. -/
theorem decodeFrame_of_encode {i : Instr} {bs : List Byte} (hi : i.wf referenceChip = true)
    (hbs : encode referenceChip i = some bs) : decodeFrame referenceChip bs = .ok i.canon := by
  have h := decodeOfEncodeIsTheOperation referenceChip i bs [] (by decide) referenceChip_unambiguous hi hbs
  rw [List.append_nil] at h
  rw [decodeFrame, h]

/-- Settles O3: each of the six words is what its operation sends, and the three bytes are refused by the opcode map. -/
theorem wordsOfTheSpecDecode : Obligations.WordsOfTheSpecDecode :=
  ⟨decodeFrame_of_encode (i := .goTo 0x12345) (by decide) rfl,
    decodeFrame_of_encode (i := .run .forward 26844) (by decide) rfl,
    decodeFrame_of_encode (i := .setMark (-3)) (by decide) rfl,
    decodeFrame_of_encode (i := .getFsSpd) rfl rfl, decodeFrame_of_encode (i := .hardStop) rfl rfl,
    decodeFrame_of_encode (i := .getStatus) rfl rfl, rfl, rfl, rfl⟩

/-! ### The status snapshot -/

/-- R96: a decoded flag is its bit against the polarity, and false outside the latched set. -/
theorem fault_decodeStatus (l : StatusLayout) (b1 b0 : Byte) (k : Nat) :
    (decodeStatus l b1 b0).fault k =
      (((statusOfBytes b1 b0).getLsbD k != l.activeLow.getLsbD k) && l.latched.getLsbD k) := by
  simp only [Snapshot.fault, decodeStatus, snapshotOf, BitVec.getLsbD_and, BitVec.getLsbD_xor]

/-- R95: the direction is Forward exactly if its bit is 1. -/
theorem direction_snapshotOf (l : StatusLayout) (w : BitVec 16) :
    (snapshotOf l w).direction = .forward ↔ w.getLsbD l.dirBit = true := by
  unfold snapshotOf
  cases w.getLsbD l.dirBit <;> simp

/-- Settles O29: hiz and busy as the model writes them, the direction and the flags by their lemmas. -/
theorem decodeStatusIsTheLayout : Obligations.DecodeStatusIsTheLayout := by
  refine fun l b1 b0 => ⟨rfl, rfl, ?_, fun k _ hk => ?_, fun k hk => ?_⟩
  · exact direction_snapshotOf l (statusOfBytes b1 b0)
  · rw [fault_decodeStatus, hk, Bool.and_true, statusOfBytes]
  · rw [fault_decodeStatus, hk, Bool.and_false]

end Sys2Proof.Machine

namespace Sys2Proof

/-- Writing the stored entry changes nothing. -/
theorem PerButton.set_get_self {α : Type} (t : PerButton α) (i : ButtonId) : t.set i (t.get i) = t := by
  cases i <;> rfl

end Sys2Proof

namespace Sys2Proof.Machine

/-! ### The push -/

theorem push_of_room {e : Event} {s : State} (h : s.ch.length < s.params.cap) :
    push e s = { s with ch := s.ch ++ [e], history := s.history ++ [⟨e, true⟩] } :=
  if_pos h

theorem push_of_full {e : Event} {s : State} (h : s.params.cap ≤ s.ch.length) :
    push e s = { s with drops := s.drops + 1, history := s.history ++ [⟨e, false⟩] } :=
  if_neg (Nat.not_lt.mpr h)

/-- 40_edge_monitor.md R116 in one equation: the event goes to the end of the channel, which is cut to its capacity. -/
theorem push_ch_of_bounded {e : Event} {s : State} (hs : ChannelBounded s) :
    (push e s).ch = (s.ch ++ [e]).take s.params.cap := by
  rcases push_cases e s with ⟨hroom, h⟩ | ⟨hfull, h⟩
  · rw [h, List.take_of_length_le (by simpa using hroom)]
  · rw [h, List.take_append_of_le_length hfull, List.take_of_length_le hs]

/-- The drop count grows by what the push cuts off. -/
theorem push_drops_of_bounded {e : Event} {s : State} (hs : ChannelBounded s) :
    (push e s).drops = s.drops + (s.ch.length + 1 - s.params.cap) := by
  rcases push_cases e s with ⟨hroom, h⟩ | ⟨hfull, h⟩
  · rw [h, Nat.sub_eq_zero_of_le hroom, Nat.add_zero]
  · rw [h, Nat.le_antisymm hs hfull, Nat.add_sub_cancel_left]

/-! ### The instructions of the event side, case by case -/

section Edge
variable {s : State} {i : ButtonId} {l : Bool}

theorem exec_edge_unregistered (hc : s.ctx = .interrupt) (hh : s.handler = none) :
    exec (.edge i l) s = .refused .notRegistered := by
  simp [exec, execEdge, hc, hh]

theorem exec_edge_suppressed {h : Nat} (hc : s.ctx = .interrupt) (hh : s.handler = some h)
    (hl : l = s.lvl.get i) : exec (.edge i l) s = .next s := by
  simp [exec, execEdge, hc, hh, hl]

theorem exec_edge_accepted {h : Nat} (hc : s.ctx = .interrupt) (hh : s.handler = some h)
    (hl : l ≠ s.lvl.get i) : exec (.edge i l) s = .next (push ⟨i, l⟩ (setLevel i l s)) := by
  simp [exec, execEdge, hc, hh, hl]

end Edge

section Dispatcher
variable {s : State} {e : Event}

theorem exec_pop_unregistered (hc : s.ctx = .dispatcher) (hh : s.handler = none) :
    exec .pop s = .refused .notRegistered := by
  simp [exec, execPop, hc, hh]

theorem exec_pop_delivers {h : Nat} {rest : List Event} (hc : s.ctx = .dispatcher)
    (hh : s.handler = some h) (hd : s.disp = .ready) (hch : s.ch = e :: rest) :
    exec .pop s = .next (deliver e { s with ch := rest, disp := .inHandler e }) := by
  simp [exec, execPop, hc, hh, hd, hch]

theorem exec_pop_empty {h : Nat} (hc : s.ctx = .dispatcher) (hh : s.handler = some h)
    (hd : s.disp = .ready) (hch : s.ch = []) : exec .pop s = .next s := by
  simp [exec, execPop, hc, hh, hd, hch]

theorem exec_pop_inHandler {h : Nat} (hc : s.ctx = .dispatcher) (hh : s.handler = some h)
    (hd : s.disp = .inHandler e) : exec .pop s = .next s := by
  simp [exec, execPop, hc, hh, hd]

theorem exec_handlerReturn_ready (hc : s.ctx = .dispatcher) (hd : s.disp = .ready) :
    exec .handlerReturn s = .next s := by
  simp [exec, execHandlerReturn, hc, hd]

theorem exec_handlerReturn_suspended (hc : s.ctx = .dispatcher) (hd : s.disp = .inHandler e)
    (hs : suspended s .dispatcher = true) : exec .handlerReturn s = .next s := by
  simp [exec, execHandlerReturn, hc, hd, hs]

theorem exec_handlerReturn_inHandler (hc : s.ctx = .dispatcher) (hd : s.disp = .inHandler e)
    (hs : suspended s .dispatcher = false) :
    exec .handlerReturn s = .next { s with disp := .ready } := by
  simp [exec, execHandlerReturn, hc, hd, hs]

end Dispatcher

section Registration
variable {s : State} {h n : Nat}

theorem exec_registerHandler_again {k : Nat} (hc : s.ctx = .task n) (hh : s.handler = some k) :
    exec (.registerHandler h) s = .refused .secondRegistration := by
  simp [exec, execRegisterHandler, hc, hh]

theorem exec_registerHandler_constructs (hc : s.ctx = .task n) (hh : s.handler = none)
    (hs : suspended s (.task n) = false) : exec (.registerHandler h) s = .next { s with
      lvl := ⟨false, false, false, false⟩, ch := [], disp := .ready, handler := some h,
      drops := 0, delivered := [], history := [] } := by
  simp [exec, execRegisterHandler, hc, hh, hs]

end Registration

/-- Settles O30: the suppressed fire, and the accepted one with and without room for its push. -/
theorem edgeIsTheDebounceFilter : Obligations.EdgeIsTheDebounceFilter := by
  intro s i l h hc hh
  refine ⟨fun hl => exec_edge_suppressed hc hh hl.symm, fun hl hroom => ?_, fun hl hfull => ?_,
    PerButton.get_set_self s.lvl i l, fun j hj => PerButton.get_set_of_ne s.lvl l hj⟩
  · rw [exec_edge_accepted hc hh hl.symm, push_of_room (s := setLevel i l s) hroom]
    rfl
  · rw [exec_edge_accepted hc hh hl.symm, push_of_full (s := setLevel i l s) hfull]
    rfl

/-- Settles O33: the delivery, written out. -/
theorem popDeliversTheHead : Obligations.PopDeliversTheHead :=
  fun _ _ _ _ => exec_pop_delivers

/-- Settles O34: by the state of the Dispatcher, where a return in a handler call asks whether it is suspended. -/
theorem dispatcherWaits : Obligations.DispatcherWaits := by
  intro s h hc hh
  refine ⟨exec_pop_empty hc hh, fun hd => ?_, exec_handlerReturn_ready hc, fun hs => ?_⟩
  · cases hdisp : s.disp with
    | ready => exact absurd hdisp hd
    | inHandler e => exact exec_pop_inHandler hc hh hdisp
  · cases hdisp : s.disp with
    | ready => exact exec_handlerReturn_ready hc hdisp
    | inHandler e => exact exec_handlerReturn_suspended hc hdisp ((suspended_iff s _).mpr hs)

/-- Settles O35: a handler with no live helper call is not suspended, and its return is enabled. -/
theorem handlerReturnMakesReady : Obligations.HandlerReturnMakesReady :=
  fun s _ hc hd hs => exec_handlerReturn_inHandler hc hd ((not_suspended_iff s _).mpr hs)

/-- Settles O37: the construction, the second call, and the two refusals before the first. -/
theorem registrationConstructsOnce : Obligations.RegistrationConstructsOnce := by
  intro s h n i l
  refine ⟨fun hc hh hs => exec_registerHandler_constructs hc hh ((not_suspended_iff s _).mpr hs),
    fun hc hh => ?_, exec_edge_unregistered, exec_pop_unregistered⟩
  obtain ⟨k, hk⟩ := Option.ne_none_iff_exists'.mp hh
  exact exec_registerHandler_again hc hk

/-! ### Several fires -/

/-- Cutting a list before something is appended or not is the same where it is cut afterwards. -/
theorem take_append_of_take {α : Type} (n : Nat) (xs ys : List α) :
    (xs.take n ++ ys).take n = (xs ++ ys).take n := by
  have hrest : n - min n xs.length = n - xs.length := by omega
  rw [List.take_append, List.take_append, List.take_take, Nat.min_self, List.length_take, hrest]

/-- The level table after fires of the four lines: each leaves its own sampled level. -/
def levelsAfter (lvl : PerButton Bool) (es : List Event) : PerButton Bool :=
  es.foldl (fun t e => t.set e.id e.level) lvl

@[simp] theorem levelsAfter_cons (lvl : PerButton Bool) (e : Event) (es : List Event) :
    levelsAfter lvl (e :: es) = levelsAfter (lvl.set e.id e.level) es := rfl

/-- What fires do to the event side (40_edge_monitor.md R112, R116): the accepted transitions go to the end of the
channel, which is cut to its capacity, and what is cut is counted; the Dispatcher has no part in it. -/
structure FiresEffect (es : List Event) (s t : State) : Prop where
  lvl : t.lvl = levelsAfter s.lvl es
  ch : t.ch = (s.ch ++ acceptedOf s.lvl es).take s.params.cap
  drops : t.drops = s.drops + (s.ch.length + (acceptedOf s.lvl es).length - s.params.cap)
  delivered : t.delivered = s.delivered
  disp : t.disp = s.disp

theorem FiresEffect.nil {s : State} (hs : ChannelBounded s) : FiresEffect [] s s where
  lvl := rfl
  ch := by simp [acceptedOf, List.take_of_length_le hs]
  drops := by simp [acceptedOf, Nat.sub_eq_zero_of_le hs]
  delivered := rfl
  disp := rfl

/-- A suppressed fire adds nothing to what the fires after it do. -/
theorem FiresEffect.cons_suppressed {e : Event} {es : List Event} {s t : State}
    (he : e.level = s.lvl.get e.id) (h : FiresEffect es s t) : FiresEffect (e :: es) s t where
  lvl := by rw [levelsAfter_cons, he, PerButton.set_get_self, h.lvl]
  ch := by rw [acceptedOf, if_pos he, h.ch]
  drops := by rw [acceptedOf, if_pos he, h.drops]
  delivered := h.delivered
  disp := h.disp

/-- An accepted fire pushes its event before those of the fires after it: cutting the channel at once or at the end is
the same. -/
theorem FiresEffect.cons_accepted {e : Event} {es : List Event} {s t : State} (hs : ChannelBounded s)
    (he : e.level ≠ s.lvl.get e.id) (h : FiresEffect es (push e (setLevel e.id e.level s)) t) :
    FiresEffect (e :: es) s t where
  lvl := by simpa using h.lvl
  ch := by
    have hch := h.ch
    rw [push_ch_of_bounded (s := setLevel e.id e.level s) hs, push_params, push_lvl, take_append_of_take,
      List.append_assoc, List.singleton_append] at hch
    rw [acceptedOf, if_neg he]
    exact hch
  drops := by
    have hdrops := h.drops
    rw [push_ch_of_bounded (s := setLevel e.id e.level s) hs,
      push_drops_of_bounded (s := setLevel e.id e.level s) hs] at hdrops
    simp only [push_params, push_lvl, setLevel_params, setLevel_lvl, setLevel_ch, setLevel_drops,
      List.length_take, List.length_append, List.length_singleton] at hdrops
    rw [acceptedOf, if_neg he, hdrops, List.length_cons]
    omega
  delivered := by simpa using h.delivered
  disp := by simpa using h.disp

/-- Fires of the four lines in interrupt context complete and have that effect. -/
theorem fireAll_effect {s : State} {h : Nat} (es : List Event) (hc : s.ctx = .interrupt)
    (hh : s.handler = some h) (hs : ChannelBounded s) :
    ∃ t, fireAll es s = .next t ∧ FiresEffect es s t := by
  induction es generalizing s with
  | nil => exact ⟨s, rfl, .nil hs⟩
  | cons e es ih =>
    by_cases he : e.level = s.lvl.get e.id
    · obtain ⟨t, ht, heff⟩ := ih hc hh hs
      exact ⟨t, by rw [fireAll, exec_edge_suppressed hc hh he, andThen, ht], heff.cons_suppressed he⟩
    · obtain ⟨t, ht, heff⟩ := ih (s := push e (setLevel e.id e.level s)) (by simpa using hc)
        (by simpa using hh) (channelBounded_invariant.accepted he hs)
      exact ⟨t, by rw [fireAll, exec_edge_accepted hc hh he, andThen, ht], heff.cons_accepted hs he⟩

/-- Settles O32: the effect of the fires, without the level table. -/
theorem fullChannelKeepsTheFirst : Obligations.FullChannelKeepsTheFirst := by
  intro s h es hc hh hs
  obtain ⟨t, ht, heff⟩ := fireAll_effect es hc hh hs
  exact ⟨t, ht, heff.ch, heff.drops, heff.delivered, heff.disp⟩

/-! ### The fires of one line -/

/-- Of the fires of one line the changes of its level are accepted (00_scope.md R17). -/
theorem acceptedOf_one_line (lvl : PerButton Bool) (i : ButtonId) (ls : List Bool) :
    acceptedOf lvl (ls.map fun l => ⟨i, l⟩) = (withoutRepeats (lvl.get i) ls).map fun l => ⟨i, l⟩ := by
  induction ls generalizing lvl with
  | nil => rfl
  | cons l ls ih =>
    by_cases hl : l = lvl.get i
    · simp [acceptedOf, withoutRepeats, hl, ih]
    · simp [acceptedOf, withoutRepeats, hl, ih]

theorem levelsAfter_one_line (lvl : PerButton Bool) (i : ButtonId) (ls : List Bool) :
    (levelsAfter lvl (ls.map fun l => ⟨i, l⟩)).get i = ls.getLastD (lvl.get i) := by
  induction ls generalizing lvl with
  | nil => rfl
  | cons l ls ih => rw [List.map_cons, levelsAfter_cons, ih, PerButton.get_set_self, List.getLastD_cons]

theorem withoutRepeats_length_le (b : Bool) (ls : List Bool) : (withoutRepeats b ls).length ≤ ls.length := by
  induction ls generalizing b with
  | nil => exact Nat.le_refl 0
  | cons l ls ih =>
    rw [withoutRepeats]
    split
    · exact Nat.le_succ_of_le (ih b)
    · exact Nat.succ_le_succ (ih l)

/-- Settles O31: the accepted fires are the level changes, at most as many as the fires, so the channel cuts none. -/
theorem firesOfOneLineEmitTheChanges : Obligations.FiresOfOneLineEmitTheChanges := by
  intro s i h ls hc hh hroom
  obtain ⟨t, ht, heff⟩ :=
    fireAll_effect (ls.map fun l => ⟨i, l⟩) hc hh (Nat.le_of_add_right_le hroom)
  have hfits : s.ch.length + (withoutRepeats (s.lvl.get i) ls).length ≤ s.params.cap :=
    (Nat.add_le_add_left (withoutRepeats_length_le _ ls) _).trans hroom
  refine ⟨t, ht, ?_, ?_, ?_⟩
  · rw [heff.ch, acceptedOf_one_line, List.take_of_length_le (by simpa using hfits)]
  · rw [heff.drops, acceptedOf_one_line, List.length_map, Nat.sub_eq_zero_of_le hfits, Nat.add_zero]
  · rw [heff.lvl, levelsAfter_one_line]

/-! ### A drain -/

/-- One round of the Dispatcher (40_edge_monitor.md R119): the head is delivered and the Dispatcher is ready again. -/
theorem drain_succ_of_cons {s : State} {h n : Nat} {e : Event} {rest : List Event}
    (hc : s.ctx = .dispatcher) (hh : s.handler = some h) (hd : s.disp = .ready)
    (hs : suspended s .dispatcher = false) (hch : s.ch = e :: rest) :
    drain (n + 1) s = drain n { s with ch := rest, delivered := s.delivered ++ [e] } := by
  have hreturn := exec_handlerReturn_inHandler (s := deliver e { s with ch := rest, disp := .inHandler e }) hc rfl hs
  rw [drain, exec_pop_delivers hc hh hd hch, andThen, hreturn, andThen, deliver, ← hd]

/-- Settles O36: by induction on the number of rounds. -/
theorem drainDeliversInOrder : Obligations.DrainDeliversInOrder := by
  intro s h n hc hh hd hs hn
  induction n generalizing s with
  | zero => simp [drain]
  | succ n ih =>
    cases hch : s.ch with
    | nil => simp [hch] at hn
    | cons e rest =>
      have hrest : n ≤ rest.length := by simpa [hch] using hn
      rw [drain_succ_of_cons hc hh hd ((not_suspended_iff s _).mpr hs) hch,
        ih { s with ch := rest, delivered := s.delivered ++ [e] } hc hh hd hs hrest]
      simp

end Sys2Proof.Machine

namespace Sys2Proof

/-! ### Masking and reading back -/

/-- R161 (a): the bits of a value at its width and above are lost. -/
theorem mask_add_mul (w : Nat) (v k : Int) : mask w (v + k * ((2 ^ w : Nat) : Int)) = mask w v := by
  rw [mask, Int.add_mul_emod_self_right, ← mask]

/-- R161 (d): a value that fits goes out unchanged. -/
theorem mask_cast_of_nonneg {w : Nat} {v : Int} (hlo : 0 ≤ v) (hhi : v < (2 ^ w : Nat)) : (mask w v : Int) = v :=
  (mask_cast w v).trans (Int.emod_eq_of_lt hlo hhi)

/-- R161 (b): a negative value goes out in two's complement. -/
theorem mask_cast_of_neg {w : Nat} {v : Int} (hlo : -(2 ^ w : Nat) ≤ v) (hhi : v < 0) :
    (mask w v : Int) = (2 ^ w : Nat) + v := by
  rw [← mask_add_mul w v 1, one_mul, add_comm v]
  exact mask_cast_of_nonneg (by omega) (by omega)

/-- R161 (c): a value of the upper half is read back negative, since its top bit is set. -/
theorem sext_mask_of_upper {w : Nat} {v : Int} (hlo : (2 ^ (w - 1) : Nat) ≤ v) (hhi : v < (2 ^ w : Nat)) :
    sext w (mask w v) = v - (2 ^ w : Nat) := by
  have hhalf : (0 : Int) ≤ (2 ^ (w - 1) : Nat) := Int.natCast_nonneg _
  have hv : (mask w v : Int) = v := mask_cast_of_nonneg (hhalf.trans hlo) hhi
  rw [sext, if_pos (by omega), hv]

/-- R162 in terms of the received number: its low bits, read as the register's signedness says. -/
theorem fieldValue_eq (signed : Bool) (w raw : Nat) :
    fieldValue signed w raw = if signed then sext w (raw % 2 ^ w) else ((raw % 2 ^ w : Nat) : Int) := by
  rw [fieldValue, mask_natCast]

/-- R91: a signed reading of `W` bits is in the two's-complement range. -/
theorem sext_bounds {w u : Nat} (hw : 0 < w) (hu : u < 2 ^ w) :
    -(2 ^ (w - 1) : Nat) ≤ sext w u ∧ sext w u < (2 ^ (w - 1) : Nat) := by
  have hpow : 2 ^ w = 2 * 2 ^ (w - 1) := by rw [← pow_succ', Nat.sub_add_cancel hw]
  unfold sext
  split <;> omega

/-- A signed reading differs from the number read by a multiple of `2^W`. -/
theorem mask_sext (w u : Nat) : mask w (sext w u) = u % 2 ^ w := by
  rw [← mask_natCast]
  unfold sext
  split
  · rw [← mask_add_mul w _ 1, one_mul, sub_add_cancel]
  · rfl

/-- Masking a received value gives the low bits of the received number back. -/
theorem mask_fieldValue (signed : Bool) (w raw : Nat) : mask w (fieldValue signed w raw) = raw % 2 ^ w := by
  rw [fieldValue_eq]
  cases signed with
  | true => exact (mask_sext w _).trans (Nat.mod_mod _ _)
  | false => exact (mask_natCast w _).trans (Nat.mod_mod _ _)

/-- Settles O9: a field is read from the low bits of the response, and a signed one within its range. -/
theorem receivedValueIgnoresPadding : Obligations.ReceivedValueIgnoresPadding := by
  intro signed w raw hw
  simp only [fieldValue_eq, Nat.mod_mod]
  refine ⟨trivial, fun hs => by rw [hs]; rfl, fun hs => ?_⟩
  rw [if_pos hs]
  exact sext_bounds hw (Nat.mod_lt _ (by positivity))

/-- R87: the direction bit as a choice between its two values. -/
theorem dirBit_eq_ite (c : ChipConst) (d : Direction) :
    dirBit c d = if d = .forward then 1#8 <<< c.dirBitPos else 0#8 := by
  cases d <;> rfl

/-- R99: the code that a set of the step mode writes is the logarithm of the divisor. -/
theorem log2_divisor (d : StepMode) : Nat.log2 d.divisor = encodeStepMode d := by
  rw [divisor_eq_two_pow, Nat.log2_two_pow]

/-- R167: of a received STEP_MODE with at least three bits the decoder sees the three low bits of the response. -/
theorem divisor_decodeStepMode_fieldValue {w : Nat} (hw : 3 ≤ w) (signed : Bool) (raw : Nat) :
    (decodeStepMode (mask w (fieldValue signed w raw))).divisor = 2 ^ (raw % 8) := by
  have hdvd : 8 ∣ 2 ^ w := pow_dvd_pow 2 hw
  rw [divisor_eq_two_pow, encodeStepMode_decodeStepMode, mask_fieldValue, Nat.mod_mod_of_dvd _ hdvd]

end Sys2Proof

namespace Sys2Proof.Machine

/-! ### Who may call -/

/-- 60_exceptions.md R266: a codec operation and a helper stand behind the gate. -/
theorem exec_eq_gated {i : Instr} (s : State)
    (h : (∃ k v, i.call = some (k, v)) ∨ i = .wait ∨ i = .approachHome ∨ ∃ p, i = .approachTarget p) :
    ∃ f : State → State, exec i s = gated f s := by
  obtain ⟨k, v, hk⟩ | rfl | rfl | ⟨p, rfl⟩ := h
  · obtain ⟨f, hf, -⟩ := codec_body hk s
    exact ⟨f, hf⟩
  · exact ⟨_, rfl⟩
  · exact ⟨_, rfl⟩
  · exact ⟨_, rfl⟩

theorem callGate_interrupt {s : State} (hc : s.ctx = .interrupt) : callGate s = .forbidden .fromInterrupt := by
  simp [callGate, hc]

theorem callGate_outsideHandler {s : State} (hc : s.ctx = .dispatcher) (hd : s.disp = .ready) :
    callGate s = .forbidden .outsideHandler := by
  simp [callGate, hc, hd]

/-- 10_state.md R29: where the context may call, a caller suspended in a helper is blocked. -/
theorem callGate_suspended {s : State} (hc : s.ctx ≠ .interrupt) (hd : s.ctx = .dispatcher → s.disp ≠ .ready)
    (hs : suspended s s.ctx = true) : callGate s = .blocked := by
  unfold callGate
  cases hctx : s.ctx with
  | interrupt => exact absurd hctx hc
  | dispatcher =>
    cases hdisp : s.disp with
    | ready => exact absurd hdisp (hd hctx)
    | inHandler e => exact if_pos (hctx ▸ hs)
  | task n => exact if_pos (hctx ▸ hs)

/-- Settles O11: the operation stands behind the gate, and the gate looks at the context alone. -/
theorem onlyTheContextRefusesACall : Obligations.OnlyTheContextRefusesACall := by
  intro i s hi
  obtain ⟨f, hf⟩ := exec_eq_gated s hi
  rw [hf]
  exact ⟨fun hc => gated_forbidden (callGate_interrupt hc),
    fun hc hd => gated_forbidden (callGate_outsideHandler hc hd),
    fun hc hd hs => gated_blocked (callGate_suspended hc hd ((suspended_iff s _).mpr hs)),
    fun hg => ⟨f s, gated_run hg⟩⟩

/-! ### The bytes of a codec operation -/

/-- R170, R171: a status read has two dummies behind its opcode byte. -/
theorem encodeCommand_statusRead {c : ChipConst} {k : Command} (h : isStatusRead c k) (v : Int) :
    encodeCommand c k v = [commandByte c k, c.dummy, c.dummy] := by
  obtain rfl | ⟨rfl, hw⟩ := h
  · simp [encodeCommand, Command.format, Command.slots, Command.width, nBytes]
  · have hb := of_decide_eq_true hw
    have hn : nBytes (c.width .status) = 2 := by unfold nBytes; omega
    simp [encodeCommand, Command.format, Command.slots, Command.width, hn]

/-- Behind the gate, a codec operation sends its encoding, and returns a value only where it reads. The status reads
send two dummies whatever the width of STATUS (R170, R171), so for a read the width has to be admissible. -/
theorem codec_body_encodes {i : Instr} {k : Command} {v : Int} {s : State} (hk : i.call = some (k, v))
    (hw : k.format = .fr → s.params.chip.statusWidthOk = true) :
    ∃ f : State → State, exec i s = gated f s ∧
      ∃ w, f s = returnValue w (afterCommand k (encodeCommand s.params.chip k v).tail s) ∧
        (k.format ≠ .fr → w = .nothing) := by
  unfold exec
  -- only the operations with a command remain, each with the gated body of its arm
  cases i <;> cases hk
  all_goals refine ⟨_, rfl, ?_⟩
  case getStatus =>
    rw [encodeCommand_statusRead (.inl rfl)]
    exact ⟨_, rfl, fun h => absurd rfl h⟩
  case getStatusNc =>
    rw [encodeCommand_statusRead (.inr ⟨rfl, hw rfl⟩)]
    exact ⟨_, rfl, fun h => absurd rfl h⟩
  all_goals refine ⟨_, rfl, ?_⟩
  all_goals simp [Command.format]

/-- A codec operation that reads nothing sends its encoding and returns nothing. -/
theorem exec_send {i : Instr} {k : Command} {v : Int} {s : State} (hg : MayCall s) (hk : i.call = some (k, v))
    (hf : k.format ≠ .fr) :
    exec i s = .next (returnValue .nothing (afterCommand k (encodeCommand s.params.chip k v).tail s)) := by
  obtain ⟨f, he, w, hbody, hw⟩ := codec_body_encodes (s := s) hk fun h => absurd h hf
  rw [he, gated_run hg, hbody, hw hf]

/-- The traffic after a command: one transaction more, of the caller, with one received byte per slot. -/
theorem afterCommand_bus (k : Command) (payload : List Byte) (s : State) :
    ∃ rx, (afterCommand k payload s).bus = s.bus ++ [⟨s.ctx, commandByte s.params.chip k :: payload, rx⟩] ∧
      rx.length = (commandByte s.params.chip k :: payload).length := by
  refine ⟨_, ?_, txn_answers_length _ s⟩
  unfold afterCommand
  cases isStop k <;> rfl

/-- Settles O23: the one transaction of a codec operation has its encoding as bytes sent. -/
theorem sentBytesAreTheEncoding : Obligations.SentBytesAreTheEncoding := by
  intro i s bs hw hg hbs
  obtain ⟨k, v, hk, rfl⟩ := encode_eq_some hbs
  obtain ⟨f, he, w, hbody, -⟩ := codec_body_encodes hk fun _ => hw
  obtain ⟨rx, hbus, hrx⟩ := afterCommand_bus k (encodeCommand s.params.chip k v).tail s
  exact ⟨f s, rx, he.trans (gated_run hg), hbody ▸ hbus, hrx⟩

/-- Settles O7: what goes out is the encoding of the command with its field, and the rest is about the mask and the
signed reading. -/
theorem truncationLaw : Obligations.TruncationLaw := by
  refine ⟨fun s i k v hg hk hf => ?_, fun w v => ⟨mask_cast w v, mask_add_mul w v, mask_cast_of_neg,
    mask_cast_of_nonneg, sext_mask, fun _ => sext_mask_of_upper⟩⟩
  obtain ⟨rx, hbus, -⟩ := afterCommand_bus k (encodeCommand s.params.chip k v).tail s
  refine ⟨_, rx, exec_send hg hk (by simp [hf]), ?_⟩
  rw [returnValue_bus, hbus, encodeCommand, hf]
  rfl

/-! ### Completion -/

/-- 41_command_codec.md R140: one transaction and a return leave the block alone. -/
theorem completes_of_exec {i : Instr} {s : State} {ts : List Byte} {v : Value}
    (h : exec i s = .next (returnValue v (txn ts s).2)) : Completes i s ts v :=
  ⟨_, h, by simp [SendsOne], by simp [SameBlock], rfl, rfl⟩

/-- An operation that sends a command, not stop-class, completes with its encoding. -/
theorem completes_of_send {i : Instr} {s : State} (hg : MayCall s) (k : Command) (v : Int)
    (hk : i.call = some (k, v)) (hf : k.format ≠ .fr) (hs : isStop k = false) :
    Completes i s (encodeCommand s.params.chip k v) .nothing := by
  have h := exec_send hg hk hf
  rw [afterCommand, hs] at h
  exact completes_of_exec h

/-- 43_motion_engine.md R222: the stop is seen in Seeking and in Waiting. -/
theorem markInstance_eq_ite (x : Instance) :
    markInstance x = if x.state = .seeking ∨ x.state = .waiting then { x with stopSeen := true } else x := by
  unfold markInstance
  split <;> simp [*]

/-- An operation that sends a stop-class command completes with the stop marked. -/
theorem completesStop_of_send {i : Instr} {s : State} (hg : MayCall s) (k : Command)
    (hk : i.call = some (k, 0)) (hf : k.format = .f0) (hs : isStop k = true) :
    CompletesStop i s (commandByte s.params.chip k) := by
  have h := exec_send hg hk (by simp [hf])
  rw [afterCommand, hs, encodeCommand, hf] at h
  exact ⟨_, h, ⟨rfl, rfl, rfl, rfl⟩, by simp [SameBlock], List.map_congr_left fun x _ => markInstance_eq_ite x, rfl⟩

/-- 41_command_codec.md R160: sending SET_PARAM of a register is its write. -/
theorem completesWrite_of_call {i : Instr} {s : State} {r : Reg} {v : Int} (hg : MayCall s)
    (hk : i.call = some (.setParam r, v)) : CompletesWrite i s r v :=
  completes_of_send hg (.setParam r) v hk nofun rfl

theorem readParam_fst (r : Reg) (s : State) : (readParam r s).1 = regValue s.params.chip r (responseOf s r) := rfl

/-- 41_command_codec.md R162: the register read returns the response as `fieldValue_eq` reads it. -/
theorem completesRead_of_exec {i : Instr} {s : State} {r : Reg}
    (h : exec i s = .next (getRegister r s)) : CompletesRead i s r := by
  rw [getRegister, readParam_fst, regValue, fieldValue_eq] at h
  exact completes_of_exec h

/-- 41_command_codec.md R170, R171: a status read decodes the bytes received in slots 1 and 2. -/
theorem completes_of_statusRead {i : Instr} {s : State} (k : Command) (hg : MayCall s)
    (he : exec i s = gated (statusReadBody k) s) :
    let ts := [commandByte s.params.chip k, s.params.chip.dummy, s.params.chip.dummy]
    Completes i s ts (.status (decodeStatus s.params.chip.layout
      ((chipSends s ts).getD 1 0) ((chipSends s ts).getD 2 0))) :=
  completes_of_exec (he.trans (gated_run hg))

/-! ### The operations one by one -/

/-- Settles O13: each sends its opcode byte alone. -/
theorem fieldlessCommandsComplete : Obligations.FieldlessCommandsComplete :=
  fun _ hg => ⟨completes_of_send hg .goHome 0 rfl nofun rfl, completes_of_send hg .goMark 0 rfl nofun rfl,
    completes_of_send hg .resetPosition 0 rfl nofun rfl, completes_of_send hg .resetDevice 0 rfl nofun rfl⟩

/-- Settles O14: each sends its opcode byte alone, and the stop is marked. -/
theorem stopCommandsComplete : Obligations.StopCommandsComplete :=
  fun _ hg => ⟨completesStop_of_send hg .softStop rfl rfl rfl, completesStop_of_send hg .hardStop rfl rfl rfl,
    completesStop_of_send hg .softHiz rfl rfl rfl, completesStop_of_send hg .hardHiz rfl rfl rfl⟩

/-- Settles O15: each sends its encoding, with the direction bit written as a choice. -/
theorem motionCommandsWithAFieldComplete : Obligations.MotionCommandsWithAFieldComplete := by
  intro s d v hg
  rw [← dirBit_eq_ite]
  exact ⟨completes_of_send hg (.run d) v rfl nofun rfl, completes_of_send hg (.move d) v rfl nofun rfl,
    completes_of_send hg .goTo v rfl nofun rfl, completes_of_send hg (.goToDir d) v rfl nofun rfl⟩

/-- Settles O16: go_to sends its encoding with the document's opcode, and at 22 bits the three fields are computed. -/
theorem goToSendsTheDocumentsBytes : Obligations.GoToSendsTheDocumentsBytes := by
  refine ⟨rfl, fun s v hg hop => ?_⟩
  have hgoTo (p : Int) : Completes (.goTo p) s
      (0x60#8 :: beBytes ((s.params.chip.width .absolutePosition + 7) / 8)
        (p % ((2 ^ s.params.chip.width .absolutePosition : Nat) : Int)).toNat) .nothing :=
    hop ▸ completes_of_send hg .goTo p rfl nofun rfl
  refine ⟨hgoTo v, fun hw => ?_⟩
  rw [hw] at hgoTo
  exact ⟨hgoTo 0x12345, hgoTo (-1), hgoTo 0x400000⟩

/-- Settles O17: a register write is the command of its register. -/
theorem setParamCompletes : Obligations.SetParamCompletes :=
  fun _ _ _ hg => completesWrite_of_call hg rfl

/-- Settles O18: each sends the write of its own register, and the code of a step mode is the logarithm. -/
theorem perRegisterSetsComplete : Obligations.PerRegisterSetsComplete := by
  intro s v d hg
  rw [log2_divisor]
  exact ⟨completesWrite_of_call hg rfl, completesWrite_of_call hg rfl, completesWrite_of_call hg rfl,
    completesWrite_of_call hg rfl, completesWrite_of_call hg rfl, completesWrite_of_call hg rfl,
    completesWrite_of_call hg rfl, completesWrite_of_call hg rfl, completesWrite_of_call hg rfl,
    completesWrite_of_call hg rfl⟩

/-- Settles O19: a register read is the body of its register. -/
theorem getParamCompletes : Obligations.GetParamCompletes :=
  fun _ _ hg => completesRead_of_exec (gated_run hg)

/-- Settles O20: each is the body of its own register. -/
theorem perRegisterGetsComplete : Obligations.PerRegisterGetsComplete :=
  fun _ hg => ⟨completesRead_of_exec (gated_run hg), completesRead_of_exec (gated_run hg),
    completesRead_of_exec (gated_run hg), completesRead_of_exec (gated_run hg), completesRead_of_exec (gated_run hg),
    completesRead_of_exec (gated_run hg), completesRead_of_exec (gated_run hg), completesRead_of_exec (gated_run hg)⟩

/-- Settles O21: the mode is decoded from the value read, whose three low bits are those of the response. -/
theorem getStepModeCompletes : Obligations.GetStepModeCompletes := by
  intro s hg hw
  refine ⟨_, divisor_decodeStepMode_fieldValue hw (s.params.chip.regs.get .stepMode).signed _, completes_of_exec ?_⟩
  rw [exec, execGetStepMode, gated_run hg]
  rfl

/-- Settles O22: both are a status read, by the opcode byte of their own command. -/
theorem statusReadsComplete : Obligations.StatusReadsComplete :=
  fun _ hg => ⟨completes_of_statusRead .getStatus hg rfl, completes_of_statusRead (.getParam .status) hg rfl⟩

end Sys2Proof.Machine

namespace Sys2Proof

/-! ### Admissible quantities -/

namespace ConvConst

theorem wf_iff {q : ConvConst} : q.wf = true ↔ 0 < q.k ∧ q.tmin ≤ q.tmax := decide_eq_true_iff

theorem scale_pos {q : ConvConst} (hq : q.wf = true) : 0 < q.k := (wf_iff.mp hq).1

theorem tmin_le_tmax {q : ConvConst} (hq : q.wf = true) : (q.tmin : Int) ≤ q.tmax :=
  Int.ofNat_le.mpr (wf_iff.mp hq).2

end ConvConst

end Sys2Proof

namespace Sys2Proof.Machine

/-! ### Rounding and saturation -/

/-- 42_unit_conversion.md R194: the library's `round` rounds half up too. -/
theorem roundNearest_eq_round (x : Rat) : roundNearest x = round x := (round_eq x).symm

@[simp] theorem roundNearest_intCast (t : Int) : roundNearest t = t := by
  rw [roundNearest_eq_round, round_intCast]

theorem roundNearest_mono : Monotone roundNearest :=
  fun _ _ h => Int.floor_mono (add_le_add_left h _)

/-- Rounding does not carry a value below an integer that it is not below. -/
theorem le_roundNearest {x : Rat} {t : Int} (h : (t : Rat) ≤ x) : t ≤ roundNearest x := by
  simpa using roundNearest_mono h

/-- Rounding does not carry a value above an integer that it is not above. -/
theorem roundNearest_le {x : Rat} {t : Int} (h : x ≤ (t : Rat)) : roundNearest x ≤ t := by
  simpa using roundNearest_mono h

/-- 00_scope.md R15: over an ordered range, saturation is a maximum of a minimum. -/
theorem sat_eq_max_min {lo hi : Int} (h : lo ≤ hi) (t : Int) : sat lo hi t = max lo (min hi t) := by
  unfold sat
  split
  case isTrue => omega
  case isFalse => split <;> omega

theorem sat_of_mem {lo hi t : Int} (hlo : lo ≤ t) (hhi : t ≤ hi) : sat lo hi t = t := by
  rw [sat_eq_max_min (hlo.trans hhi), min_eq_right hhi, max_eq_right hlo]

theorem sat_of_ge {lo hi t : Int} (h : lo ≤ hi) (ht : hi ≤ t) : sat lo hi t = hi := by
  rw [sat_eq_max_min h, min_eq_left ht, max_eq_right h]

theorem sat_of_le {lo hi t : Int} (h : lo ≤ hi) (ht : t ≤ lo) : sat lo hi t = lo := by
  rw [sat_eq_max_min h, min_eq_right (ht.trans h), max_eq_left ht]

theorem le_sat {lo hi : Int} (h : lo ≤ hi) (t : Int) : lo ≤ sat lo hi t :=
  sat_eq_max_min h t ▸ le_max_left _ _

theorem sat_le {lo hi : Int} (h : lo ≤ hi) (t : Int) : sat lo hi t ≤ hi :=
  sat_eq_max_min h t ▸ max_le h (min_le_left _ _)

theorem sat_mono {lo hi : Int} (h : lo ≤ hi) : Monotone (sat lo hi) := by
  intro a b hab
  rw [sat_eq_max_min h, sat_eq_max_min h]
  exact max_le_max_left lo (min_le_min_left hi hab)

/-! ### The two conversions of a quantity -/

/-- 42_unit_conversion.md R207: within the range nothing saturates. -/
theorem calculate_of_mem {q : ConvConst} {v : Rat} (hlo : (q.tmin : Rat) ≤ v * q.k - q.off)
    (hhi : v * q.k - q.off ≤ q.tmax) : calculate q v = roundNearest (v * q.k - q.off) :=
  sat_of_mem (le_roundNearest (mod_cast hlo)) (roundNearest_le (mod_cast hhi))

section
variable {q : ConvConst} (hq : q.wf = true)
include hq

theorem calculate_of_ge {v : Rat} (h : (q.tmax : Rat) ≤ v * q.k - q.off) : calculate q v = q.tmax :=
  sat_of_ge (ConvConst.tmin_le_tmax hq) (le_roundNearest (mod_cast h))

theorem calculate_of_le {v : Rat} (h : v * q.k - q.off ≤ (q.tmin : Rat)) : calculate q v = q.tmin :=
  sat_of_le (ConvConst.tmin_le_tmax hq) (roundNearest_le (mod_cast h))

/-- A value of 0 or less is at or below the range where the offset is not negative. -/
theorem calculate_of_nonpos {v : Rat} (hoff : 0 ≤ q.off) (hv : v ≤ 0) : calculate q v = q.tmin := by
  refine calculate_of_le hq ?_
  calc v * q.k - q.off
    _ ≤ v * q.k := sub_le_self _ hoff
    _ ≤ 0 := mul_nonpos_of_nonpos_of_nonneg hv (ConvConst.scale_pos hq).le
    _ ≤ q.tmin := Nat.cast_nonneg _

theorem tmin_le_calculate (v : Rat) : (q.tmin : Int) ≤ calculate q v := le_sat (ConvConst.tmin_le_tmax hq) _

theorem calculate_le_tmax (v : Rat) : calculate q v ≤ q.tmax := sat_le (ConvConst.tmin_le_tmax hq) _

theorem calculate_mono : Monotone (calculate q) := fun _ _ h =>
  sat_mono (ConvConst.tmin_le_tmax hq) (roundNearest_mono
    (sub_le_sub_right (mul_le_mul_of_nonneg_right h (ConvConst.scale_pos hq).le) _))

theorem parse_strictMono : StrictMono (parse q) := fun _ _ h =>
  div_lt_div_of_pos_right (add_lt_add_left (Int.cast_lt.mpr h) _) (ConvConst.scale_pos hq)

/-- 42_unit_conversion.md R208: the exact tick value of a parsed tick is the tick. -/
theorem parse_mul_sub (t : Int) : parse q t * q.k - q.off = t := by
  rw [parse, div_mul_cancel₀ _ (ConvConst.scale_pos hq).ne', add_sub_cancel_right]

/-- A physical value against a parsed tick is its exact tick value against the tick. -/
theorem parse_le_iff {t : Int} {x : Rat} : parse q t ≤ x ↔ (t : Rat) ≤ x * q.k - q.off := by
  rw [parse, div_le_iff₀ (ConvConst.scale_pos hq), le_sub_iff_add_le]

theorem le_parse_iff {t : Int} {x : Rat} : x ≤ parse q t ↔ x * q.k - q.off ≤ (t : Rat) := by
  rw [parse, le_div_iff₀ (ConvConst.scale_pos hq), sub_le_iff_le_add]

/-- The physical error of a tick is its error in ticks over the scale. -/
theorem parse_sub_eq (t : Int) (x : Rat) : parse q t - x = (t - (x * q.k - q.off)) / q.k := by
  rw [eq_div_iff (ConvConst.scale_pos hq).ne', ← parse_mul_sub hq t]
  ring

/-- 42_unit_conversion.md R207: rounding to a tick costs at most half a quantization step. -/
theorem abs_parse_roundNearest_sub_le (x : Rat) :
    |parse q (roundNearest (x * q.k - q.off)) - x| ≤ 1 / (2 * q.k) := by
  have hk := ConvConst.scale_pos hq
  rw [parse_sub_eq hq, roundNearest_eq_round, abs_div, abs_of_pos hk, abs_sub_comm, ← div_div]
  exact div_le_div_of_nonneg_right (abs_sub_round _) hk.le

end

/-- Settles O57: the exact tick value rounds to the same side of each bound, and saturation keeps the result in a range
that the mask does not cut. -/
theorem calculateSaturates : Obligations.CalculateSaturates := by
  refine fun q v hq => ⟨calculate_of_ge hq, calculate_of_le hq, calculate_of_nonpos hq, tmin_le_calculate hq v,
    calculate_le_tmax hq v, fun w hw => mask_cast_of_nonneg ?_ ?_⟩
  · exact (Int.natCast_nonneg _).trans (tmin_le_calculate hq v)
  · exact (calculate_le_tmax hq v).trans_lt (Int.ofNat_lt.mpr hw)

/-- Settles O58: within the valid range the ticks are the rounded ones. -/
theorem roundTripWithinHalfAStep : Obligations.RoundTripWithinHalfAStep := by
  intro q x hq hlo hhi
  rw [calculate_of_mem (mod_cast (parse_le_iff hq).mp hlo) (mod_cast (le_parse_iff hq).mp hhi)]
  exact abs_parse_roundNearest_sub_le hq x

/-- Settles O59: the exact tick value of a parsed tick needs neither rounding nor saturation. -/
theorem ticksRoundTripExactly : Obligations.TicksRoundTripExactly := by
  intro q t hq hlo hhi
  rw [calculate, parse_mul_sub hq, roundNearest_intCast, sat_of_mem hlo hhi]

/-- Settles O60: scaling by a positive number, rounding and saturating are monotone. -/
theorem conversionsAreMonotone : Obligations.ConversionsAreMonotone :=
  fun _ hq => ⟨fun _ _ h => calculate_mono hq h, fun _ _ h => parse_strictMono hq h⟩

/-! ### The twelve functions -/

/-- 42_unit_conversion.md R191: a pure call of `calculate_q` hands back the rounded and saturated ticks. -/
theorem completesPure_of_calculate {i : Instr} {s : State} {q : ConvConst} {v : Rat}
    (h : exec i s = pureCall (.int (calculate q v)) s) :
    let y := (v * q.k - q.off + 1 / 2).floor
    CompletesPure i s (.int (if y < q.tmin then q.tmin else if q.tmax < y then q.tmax else y)) := h

/-- 42_unit_conversion.md R191: a pure call of `parse_q` hands back the scaled ticks. -/
theorem completesPure_of_parse {i : Instr} {s : State} {q : ConvConst} {t : Int}
    (h : exec i s = pureCall (.phys (parse q t)) s) : CompletesPure i s (.phys ((t + q.off) / q.k)) := h

/-- Settles O56: each function is a pure call with the parameters of its own quantity. -/
theorem conversionsComplete : Obligations.ConversionsComplete := fun _ _ _ =>
  ⟨⟨completesPure_of_calculate rfl, completesPure_of_calculate rfl, completesPure_of_calculate rfl,
    completesPure_of_calculate rfl, completesPure_of_calculate rfl, completesPure_of_calculate rfl⟩,
    completesPure_of_parse rfl, completesPure_of_parse rfl, completesPure_of_parse rfl, completesPure_of_parse rfl,
    completesPure_of_parse rfl, completesPure_of_parse rfl⟩

end Sys2Proof.Machine

namespace Sys2Proof.Machine

/-! ### The steps of a motion engine, by its state -/

theorem seekStep_approachHome {m c : Context} {s : State} {b : Bool}
    (h : instanceOf m s = some ⟨c, .idle, .approachHome, b⟩) :
    seekStep m s = sendGoHome (setEngineState m .seeking s) := by
  simp [seekStep, h]

theorem seekStep_approachTarget {m c : Context} {s : State} {p : Int} {b : Bool}
    (h : instanceOf m s = some ⟨c, .idle, .approachTarget p, b⟩) :
    seekStep m s = sendGoTo p (setEngineState m .seeking s) := by
  simp [seekStep, h]

theorem seekStep_wait {m c : Context} {s : State} {b : Bool} (h : instanceOf m s = some ⟨c, .idle, .wait, b⟩) :
    seekStep m s = s := by
  simp [seekStep, h]

theorem seekStep_of_not_idle {m : Context} {s : State} (h : engineStateOf m s ≠ some .idle) : seekStep m s = s := by
  unfold seekStep
  split
  · next hx => simp [engineStateOf, hx] at h
  · next hx => simp [engineStateOf, hx] at h
  all_goals rfl

section
variable {m : Context} {s : State} {x : Instance} (hx : instanceOf m s = some x)
include hx

theorem enterWaitStep_eq : enterWaitStep m s =
    if x.state = .seeking ∨ (x.state = .idle ∧ x.kind = .wait) then setEngineState m .waiting s else s := by
  obtain ⟨c, v, k, b⟩ := x
  cases v with
  | idle => cases k <;> simp [enterWaitStep, hx]
  | _ => simp [enterWaitStep, hx]

theorem resumeStep_eq : resumeStep m s =
    if x.state = .done ∨ x.state = .aborted then returnValue .nothing (destroyInstance m s) else s := by
  obtain ⟨c, v, k, b⟩ := x
  cases v <;> simp [resumeStep, hx]

theorem engineStateOf_setEngineState (v : EngineState) : engineStateOf m (setEngineState m v s) = some v := by
  simp [engineStateOf, instanceOf_setEngineState_self, hx]

theorem engineStateOf_of_instance : engineStateOf m s = some x.state := by
  simp [engineStateOf, hx]

/-- A step that makes one transaction and moves the engine of `m` changes nothing else. -/
theorem moved_with_txn {v : EngineState} {ts : List Byte} {t : State} (ht : t = setEngineState m v (txn ts s).2) :
    engineStateOf m t = some v ∧ SendsOne s t ts ∧ SameBlock s t ∧
      t.ms = (s.ms.map fun y => if y.caller = m then { y with state := v } else y) ∧ t.ret = s.ret := by
  subst ht
  exact ⟨engineStateOf_setEngineState ((instanceOf_congr (txn_ms ts s)).trans hx) v, ⟨rfl, rfl, rfl, rfl⟩,
    by simp [SameBlock], rfl, rfl⟩

end

/-! ### The instances of the other callers -/

/-- Of the live instances, a step has at most moved or destroyed those of the caller `m`. -/
def TouchesOnly (m : Context) (s t : State) : Prop :=
  t.ms = s.ms ∨ (∃ v, t.ms = (setEngineState m v s).ms) ∨ t.ms = (destroyInstance m s).ms

theorem TouchesOnly.instanceOf_eq {m n : Context} {s t : State} (h : TouchesOnly m s t) (hn : n ≠ m) :
    instanceOf n t = instanceOf n s := by
  rcases h with h | ⟨v, h⟩ | h
  · exact instanceOf_congr h
  · exact (instanceOf_congr h).trans (instanceOf_setEngineState_of_ne v s hn)
  · exact (instanceOf_congr h).trans (instanceOf_destroy_of_ne s hn)

theorem seekStep_touchesOnly (m : Context) (s : State) : TouchesOnly m s (seekStep m s) := by
  unfold seekStep
  split
  · exact .inr (.inl ⟨.seeking, rfl⟩)
  · exact .inr (.inl ⟨.seeking, rfl⟩)
  all_goals exact .inl rfl

theorem enterWaitStep_touchesOnly (m : Context) (s : State) : TouchesOnly m s (enterWaitStep m s) := by
  unfold enterWaitStep
  split
  · exact .inr (.inl ⟨.waiting, rfl⟩)
  · exact .inr (.inl ⟨.waiting, rfl⟩)
  all_goals exact .inl rfl

theorem pollStep_touchesOnly (m : Context) (s : State) : TouchesOnly m s (pollStep m s) := by
  unfold pollStep
  split
  · split
    · exact .inl (pollRead_ms s)
    · exact .inr (.inl ⟨_, by simp only [setEngineState_ms, pollRead_ms]; rfl⟩)
  all_goals exact .inl rfl

theorem resumeStep_touchesOnly (m : Context) (s : State) : TouchesOnly m s (resumeStep m s) := by
  unfold resumeStep
  split
  · exact .inr (.inr rfl)
  · exact .inr (.inr rfl)
  all_goals exact .inl rfl

/-- Settles O55: each step touches only the engine of the caller it is named by. -/
theorem instancesAreIndependent : Obligations.InstancesAreIndependent := fun s m _ hn =>
  ⟨(seekStep_touchesOnly m s).instanceOf_eq hn, (enterWaitStep_touchesOnly m s).instanceOf_eq hn,
    (pollStep_touchesOnly m s).instanceOf_eq hn, (resumeStep_touchesOnly m s).instanceOf_eq hn⟩

/-! ### The calls, SEEK, ENTER_WAIT and RETURN -/

/-- 10_state.md R29: the caller of a helper is suspended. -/
theorem not_mayCall_createInstance (k : EngineKind) (s : State) : ¬ MayCall (createInstance k s) := by
  intro hg
  have hfree := (not_suspended_iff _ _).mp (callGate_run hg).1
  exact hfree ⟨s.ctx, .idle, k, false⟩ (by simp) rfl

/-- Settles O49: behind an open gate the call is `CREATE`. -/
theorem helpersCreateAnInstance : Obligations.HelpersCreateAnInstance := by
  intro s p hg
  have created (k : EngineKind) : gated (createInstance k) s = .next (createInstance k s) := gated_run hg
  refine ⟨created _, created _, created _, fun i t hi ht => ?_⟩
  obtain ⟨k, hk⟩ : ∃ k, exec i s = .next (createInstance k s) := by
    rcases hi with rfl | rfl | rfl
    · exact ⟨_, created _⟩
    · exact ⟨_, created _⟩
    · exact ⟨_, created _⟩
  cases hk.symm.trans ht
  exact not_mayCall_createInstance k s

/-- Settles O50: the engine is moved with the transaction of its maneuver, and a SEEK that is not enabled does
nothing. -/
theorem seekSendsTheMotionCommand : Obligations.SeekSendsTheMotionCommand := fun _ _ _ _ =>
  ⟨fun h => moved_with_txn h (seekStep_approachHome h), fun h => moved_with_txn h (seekStep_approachTarget h),
    seekStep_wait, seekStep_of_not_idle⟩

/-- Settles O51: by the equations of the two steps; no live instances of the caller are left to suspend it. -/
theorem enterWaitAndReturn : Obligations.EnterWaitAndReturn := by
  intro s m x hx
  rw [enterWaitStep_eq hx, resumeStep_eq hx]
  refine ⟨fun h => if_pos h, fun h => if_neg h, fun h => ?_, fun h => if_neg h⟩
  rw [if_pos h]
  exact ⟨rfl, (not_suspended_iff _ m).mpr (by simp)⟩

/-! ### POLL and the wait -/

/-- The bytes of a poll: the status read in the form `WAIT_CLEARING` selects (43_motion_engine.md R233). -/
def pollBytes (s : State) : List Byte :=
  [if s.params.waitClearing then s.params.chip.opcGetStatus
    else withAddr s.params.chip.opcGetParam (s.params.chip.regs.get .status).addr,
   s.params.chip.dummy, s.params.chip.dummy]

theorem pollRead_eq (s : State) : pollRead s =
    (decodeStatus s.params.chip.layout
        (slotByte (chipSends s (pollBytes s)) 1) (slotByte (chipSends s (pollBytes s)) 2),
      (txn (pollBytes s) s).2) := by
  unfold pollRead pollBytes
  cases s.params.waitClearing <;> rfl

/-- R223: the poll of a waiting engine is its transaction, with a move to the final state unless it read busy. -/
theorem pollStep_eq {m : Context} {s : State} {x : Instance} (hx : instanceOf m s = some x) : pollStep m s =
    if x.state = .waiting then
      if pollBusy s then (txn (pollBytes s) s).2
      else setEngineState m (if x.stopSeen then .aborted else .done) (txn (pollBytes s) s).2
    else s := by
  obtain ⟨c, v, k, b⟩ := x
  cases v with
  | waiting =>
    rw [pollStep, hx, pollBusy, pollRead_eq]
    rfl
  | _ => simp [pollStep, hx]

section
variable {m : Context} {s : State} {x : Instance} (hx : instanceOf m s = some x) (hw : x.state = .waiting)
include hx hw

theorem pollStep_of_busy (hb : pollBusy s = true) : pollStep m s = (txn (pollBytes s) s).2 := by
  rw [pollStep_eq hx, if_pos hw, if_pos hb]

theorem pollStep_of_not_busy (hb : pollBusy s = false) :
    pollStep m s = setEngineState m (if x.stopSeen then .aborted else .done) (txn (pollBytes s) s).2 := by
  rw [pollStep_eq hx, if_pos hw, hb]
  rfl

/-- R224: `n` polls that read busy make `n` transactions and leave all instances as they were. -/
theorem polls_of_busy (n : Nat) (hb : ∀ j, j < n → pollBusy (polls m j s) = true) :
    (polls m n s).ms = s.ms ∧ (polls m n s).bus.length = s.bus.length + n := by
  induction n with
  | zero => exact ⟨rfl, rfl⟩
  | succ n ih =>
    obtain ⟨hms, hbus⟩ := ih fun j hj => hb j (hj.trans n.lt_succ_self)
    rw [polls, pollStep_of_busy ((instanceOf_congr hms).trans hx) hw (hb n n.lt_succ_self)]
    exact ⟨hms, by simp [hbus, Nat.add_assoc]⟩

end

/-- Settles O52: a poll is its transaction, and where it did not read busy the engine is moved with it. -/
theorem pollReadsTheStatus : Obligations.PollReadsTheStatus := by
  intro s m x hx
  refine ⟨fun hw => ?_, fun hw => (pollStep_eq hx).trans (if_neg hw)⟩
  intro ts busy
  have hbusy : pollBusy s = busy := by
    rw [pollBusy, pollRead_eq]
    rfl
  rw [← hbusy]
  cases hb : pollBusy s with
  | true =>
    rw [pollStep_of_busy hx hw hb]
    exact ⟨⟨rfl, rfl, rfl, rfl⟩, by simp [SameBlock], rfl, rfl, hw ▸ engineStateOf_of_instance hx⟩
  | false =>
    obtain ⟨hstate, hsent, hblock, hms, hret⟩ := moved_with_txn hx (pollStep_of_not_busy hx hw hb)
    exact ⟨hsent, hblock, hret, hms, hstate⟩

/-- Settles O54: polls that read busy leave the instances as they were. -/
theorem waitHasNoTimeout : Obligations.WaitHasNoTimeout := by
  intro s m x hx hw hb n
  obtain ⟨hms, hbus⟩ := polls_of_busy hx hw n fun j _ => hb j
  exact ⟨hw ▸ engineStateOf_of_instance ((instanceOf_congr hms).trans hx), hbus⟩

/-- Settles O53: the engine still waits after `k` polls, the next one moves it to its final state, and its return
destroys it there. -/
theorem helperReturnsAfterTheFirstNotBusyPoll : Obligations.HelperReturnsAfterTheFirstNotBusyPoll := by
  intro s m x k hx hw hbusy hend
  have still (j : Nat) (hj : j ≤ k) : instanceOf m (polls m j s) = some x :=
    (instanceOf_congr (polls_of_busy hx hw j fun i hi => hbusy i (hi.trans_le hj)).1).trans hx
  obtain ⟨-, hbus⟩ := polls_of_busy hx hw k hbusy
  have hlast := pollStep_of_not_busy (still k le_rfl) hw hend
  have hstate : engineStateOf m (polls m (k + 1) s) = some (if x.stopSeen then .aborted else .done) :=
    (moved_with_txn (still k le_rfl) hlast).1
  refine ⟨fun j hj => ⟨hw ▸ engineStateOf_of_instance (still j hj), ?_⟩, hstate, ?_, ?_⟩
  · rw [resumeStep_eq (still j hj), if_neg (by simp [hw])]
  · obtain ⟨y, hy, hfinal⟩ := Option.map_eq_some_iff.mp hstate
    have hdone : y.state = .done ∨ y.state = .aborted := by
      rw [hfinal]
      cases x.stopSeen <;> simp
    rw [resumeStep_eq hy, if_pos hdone, engineStateOf, instanceOf_congr (returnValue_ms _ _), instanceOf_destroy_self]
    rfl
  · rw [polls, hlast]
    simp [hbus, Nat.add_assoc]

/-! ### The instances and their callers along a step -/

/-- The joint invariant. The ghost bits need distinct callers, since the instances of one caller move together (R222),
and the callers need the empty block before registration, since only there does the construction cut off no handler
call (R293). -/
structure EngineInvariant (s : State) : Prop where
  instances : InstancesOk s
  callers : CallersOk s
  empty : EmptyBeforeRegistration s

theorem emptyBeforeRegistration_congr {s t : State} (h : SameEvents s t) (hs : EmptyBeforeRegistration s) :
    EmptyBeforeRegistration t := by
  unfold EmptyBeforeRegistration
  rw [h.handler, h.lvl, h.ch, h.disp, h.drops, h.delivered, h.history]
  exact hs

/-- The callers stay distinct where instances are at most destroyed, and a handler call ends only where the Dispatcher
task is not suspended. -/
theorem callersOk_of_sublist {s t : State} (hs : CallersOk s)
    (hsub : (t.ms.map (·.caller)).Sublist (s.ms.map (·.caller)))
    (hd : t.disp = .ready → s.disp = .ready ∨ suspended s .dispatcher = false) : CallersOk t := by
  obtain ⟨hnodup, hctx⟩ := hs
  refine ⟨hnodup.sublist hsub, fun x hx => ?_⟩
  obtain ⟨y, hy, hyx⟩ := List.mem_map.mp (hsub.subset (List.mem_map_of_mem hx))
  obtain ⟨hint, hdisp⟩ := hctx y hy
  rw [← hyx]
  refine ⟨hint, fun hc ht => ?_⟩
  rcases hd ht with h | h
  · exact hdisp hc h
  · exact (not_suspended_iff _ _).mp h y hy hc

theorem EngineInvariant.of_sameEvents {s t : State} (hs : EngineInvariant s) (h : SameEvents s t)
    (hsub : (t.ms.map (·.caller)).Sublist (s.ms.map (·.caller))) (hok : InstancesOk t) : EngineInvariant t :=
  ⟨hok, callersOk_of_sublist hs.callers hsub fun ht => .inl (h.disp ▸ ht), emptyBeforeRegistration_congr h hs.empty⟩

/-- Where the instances and the event side are the same, so is the invariant. -/
theorem EngineInvariant.congr {s t : State} (hs : EngineInvariant s) (h : SameEvents s t) (hms : t.ms = s.ms) :
    EngineInvariant t :=
  hs.of_sameEvents h (by rw [hms]) (by rw [InstancesOk, hms]; exact hs.instances)

/-- MARK_STOP sets the ghost bit in states that admit both values (43_motion_engine.md R222). -/
theorem instanceOk_markInstance {x : Instance} (h : instanceOk x = true) : instanceOk (markInstance x) = true := by
  obtain ⟨c, v, k, b⟩ := x
  cases v <;> exact h

/-- A change of the instances that keeps each caller. -/
theorem callers_sublist_map {f : Instance → Instance} (hf : ∀ x, (f x).caller = x.caller) (l : List Instance) :
    ((l.map f).map (·.caller)).Sublist (l.map (·.caller)) := by
  rw [List.map_map, show (·.caller) ∘ f = (·.caller) from funext hf]

theorem callers_setEngineState (m : Context) (v : EngineState) (s : State) :
    ((setEngineState m v s).ms.map (·.caller)).Sublist (s.ms.map (·.caller)) :=
  callers_sublist_map (fun x => by split <;> rfl) s.ms

/-- Callers are distinct, so only the one found moves. -/
theorem instancesOk_setEngineState {m : Context} {v : EngineState} {s : State} {x : Instance} (hs : InstancesOk s)
    (hc : CallersOk s) (hx : instanceOf m s = some x) (hv : instanceOk { x with state := v } = true) :
    InstancesOk (setEngineState m v s) := by
  obtain ⟨hmem, hm⟩ := instanceOf_some hx
  refine List.forall_mem_map.mpr fun y hy => ?_
  split
  · next hym =>
    obtain rfl : y = x := List.inj_on_of_nodup_map hc.1 hy hmem (hym.trans hm.symm)
    exact hv
  · exact hs y hy

/-! ### The steps of the instances and of the environment -/

theorem AgentEffect.callers_sublist {s t : State} (h : AgentEffect s t) :
    (t.ms.map (·.caller)).Sublist (s.ms.map (·.caller)) := by
  cases h with
  | sought m => exact callers_setEngineState m _ s
  | entered m => exact callers_setEngineState m _ s
  | polledEnd m => exact callers_setEngineState m _ s
  | resumed m => exact List.filter_sublist.map _
  | motionEnded => rw [motionComplete_ms]
  | chipStepped r => rw [chipStep_ms]
  | _ => exact .refl _

theorem AgentEffect.instancesOk {s t : State} (h : AgentEffect s t) (hs : InstancesOk s) (hc : CallersOk s) :
    InstancesOk t := by
  cases h with
  | sought m x ts hx _ hk _ => exact instancesOk_setEngineState hs hc hx (by simpa [instanceOk] using hk)
  | entered m x hx => exact instancesOk_setEngineState hs hc hx rfl
  | polledEnd m x ts hx _ _ =>
    exact instancesOk_setEngineState hs hc hx (by cases x.stopSeen <;> rfl)
  | resumed m x _ => exact fun y hy => hs y (List.mem_of_mem_filter hy)
  | motionEnded => rwa [InstancesOk, motionComplete_ms]
  | chipStepped r => rwa [InstancesOk, chipStep_ms]
  | _ => exact hs

theorem AgentEffect.engineInvariant {s t : State} (h : AgentEffect s t) (hs : EngineInvariant s) : EngineInvariant t :=
  hs.of_sameEvents h.sameEvents h.callers_sublist (h.instancesOk hs.instances hs.callers)

/-! ### The instructions, by effect -/

/-- Where the gate is open the caller is not suspended, and it is a task or the Dispatcher task in a handler call
(60_exceptions.md R266). -/
theorem callersOk_createInstance {k : EngineKind} {s : State} (hs : CallersOk s) (hg : callGate s = .run) :
    CallersOk (createInstance k s) := by
  obtain ⟨hfree, hint, hdisp⟩ := callGate_run hg
  obtain ⟨hnodup, hctx⟩ := hs
  have hnew : s.ctx ∉ s.ms.map (·.caller) := by
    simpa using (not_suspended_iff s s.ctx).mp hfree
  refine ⟨?_, List.forall_mem_append.mpr ⟨hctx, List.forall_mem_singleton.mpr ⟨hint, hdisp⟩⟩⟩
  rw [createInstance_ms, List.map_append]
  exact List.concat_eq_append ▸ hnodup.concat hnew

theorem EngineInvariant.after_createInstance {k : EngineKind} {s : State} (hs : EngineInvariant s)
    (hg : callGate s = .run) : EngineInvariant (createInstance k s) where
  instances := List.forall_mem_append.mpr ⟨hs.instances, List.forall_mem_singleton.mpr rfl⟩
  callers := callersOk_createInstance hs.callers hg
  empty := hs.empty

theorem EngineInvariant.after_markStop {s : State} (hs : EngineInvariant s) : EngineInvariant (markStop s) :=
  hs.of_sameEvents (by constructor <;> rfl) (callers_sublist_map markInstance_caller s.ms)
    (List.forall_mem_map.mpr fun x hx => instanceOk_markInstance (hs.instances x hx))

theorem ExecEffect.engineInvariant {i : Instr} {s t : State} (h : ExecEffect i s t) (hs : EngineInvariant s) :
    EngineInvariant t := by
  cases h with
  | nothing => exact hs
  | pureValue => exact hs.congr (by constructor <;> rfl) rfl
  | sent => exact hs.congr (by constructor <;> rfl) rfl
  | stopped op =>
    have hsent : EngineInvariant (txn [op] s).2 := hs.congr (by constructor <;> rfl) rfl
    exact hsent.after_markStop.congr (by constructor <;> rfl) rfl
  | created k _ hg => exact hs.after_createInstance hg
  | accepted b l _ _ hh _ =>
    exact ⟨by simpa [InstancesOk] using hs.instances, by simpa [CallersOk] using hs.callers,
      fun hn => absurd (by simpa using hn) hh⟩
  | popped e rest _ _ hh _ _ =>
    exact ⟨hs.instances, callersOk_of_sublist hs.callers (.refl _) nofun, fun hn => absurd hn hh⟩
  | returned _ _ hfree =>
    refine ⟨hs.instances, callersOk_of_sublist hs.callers (.refl _) fun _ => .inr hfree, fun hn => ?_⟩
    obtain ⟨hlvl, hch, -, hrest⟩ := hs.empty hn
    exact ⟨hlvl, hch, rfl, hrest⟩
  | constructed n h _ _ hh =>
    obtain ⟨-, -, hready, -⟩ := hs.empty hh
    exact ⟨hs.instances, callersOk_of_sublist hs.callers (.refl _) fun _ => .inl hready, nofun⟩

theorem afterChoice_beforeStep_ms (s : State) : (afterChoice (beforeStep s)).ms = s.ms := by
  obtain ⟨r, rest, h⟩ := evaluateConversions_eq s.script s
  rw [afterChoice_ms, beforeStep, h]

/-- Settles O42: the choice of the step does not touch the invariant, and each effect of a step keeps it. -/
theorem engineInvariantIsKept : Obligations.EngineInvariantIsKept := by
  intro s t hok hcallers hempty hstep
  have before (c : Context) : EngineInvariant (asContext c (afterChoice (beforeStep s))) :=
    EngineInvariant.congr ⟨hok, hcallers, hempty⟩ (sameEvents_choice c s) (afterChoice_beforeStep_ms s)
  have after : EngineInvariant t := by
    rcases step_effect hstep with ⟨c, i, he⟩ | ⟨c, ha⟩
    · exact he.engineInvariant (before c)
    · exact ha.engineInvariant (before c)
  exact ⟨after.instances, after.callers, after.empty⟩

end Sys2Proof.Machine

namespace Sys2Proof.Machine

/-! ### The gate, by the context that is let through -/

theorem mayCall_iff_of_task {s : State} {n : Nat} (hc : s.ctx = .task n) :
    MayCall s ↔ suspended s (.task n) = false := by
  simp [MayCall, callGate, hc]

theorem mayCall_iff_of_handler {s : State} {e : Event} (hc : s.ctx = .dispatcher) (hd : s.disp = .inHandler e) :
    MayCall s ↔ suspended s .dispatcher = false := by
  simp [MayCall, callGate, hc, hd]

/-- Settles O10: in each context the gate is closed whatever the instances are, or asks for the suspension alone. -/
theorem callsRunInTaskContextOnly : Obligations.CallsRunInTaskContextOnly := by
  intro s
  rw [← not_suspended_iff]
  cases hctx : s.ctx with
  | interrupt => simp [MayCall, callGate_interrupt hctx]
  | dispatcher =>
    cases hdisp : s.disp with
    | ready => simp [MayCall, callGate_outsideHandler hctx hdisp]
    | inHandler e => simp [mayCall_iff_of_handler hctx hdisp]
  | task n => simp [mayCall_iff_of_task hctx]

/-! ### The instructions of the event side outside their contexts -/

section WrongContext
variable {s : State}

theorem exec_edge_outside_interrupt {b : ButtonId} {l : Bool} (hc : s.ctx ≠ .interrupt) :
    exec (.edge b l) s = .refused .notInterrupt := by
  cases hctx : s.ctx with
  | interrupt => exact absurd hctx hc
  | dispatcher => simp [exec, execEdge, hctx]
  | task n => simp [exec, execEdge, hctx]

theorem exec_pop_outside_dispatcher (hc : s.ctx ≠ .dispatcher) : exec .pop s = .refused .notDispatcher := by
  cases hctx : s.ctx with
  | dispatcher => exact absurd hctx hc
  | interrupt => simp [exec, execPop, hctx]
  | task n => simp [exec, execPop, hctx]

theorem exec_handlerReturn_outside_dispatcher (hc : s.ctx ≠ .dispatcher) :
    exec .handlerReturn s = .refused .notDispatcher := by
  cases hctx : s.ctx with
  | dispatcher => exact absurd hctx hc
  | interrupt => simp [exec, execHandlerReturn, hctx]
  | task n => simp [exec, execHandlerReturn, hctx]

theorem exec_registerHandler_interrupt {h : Nat} (hc : s.ctx = .interrupt) :
    exec (.registerHandler h) s = .refused .fromInterrupt := by
  simp [exec, execRegisterHandler, hc]

theorem exec_registerHandler_dispatcher {h : Nat} (hc : s.ctx = .dispatcher) :
    exec (.registerHandler h) s = .refused .fromDispatcher := by
  simp [exec, execRegisterHandler, hc]

end WrongContext

/-- Settles O12: each instruction asks for its context before anything else. -/
theorem wrongContextIsRefused : Obligations.WrongContextIsRefused :=
  fun _ _ _ _ => ⟨exec_edge_outside_interrupt,
    fun hc => ⟨exec_pop_outside_dispatcher hc, exec_handlerReturn_outside_dispatcher hc⟩,
    exec_registerHandler_interrupt, exec_registerHandler_dispatcher⟩

/-! ### The steps of the chip -/

section ChipSteps
variable {s : State} {q : RefChip}

theorem motionComplete_oracle (hc : s.chip = .oracle) : motionComplete s = s := by
  simp [motionComplete, hc]

theorem motionComplete_reference (hc : s.chip = .reference q) :
    motionComplete s = { s with chip := .reference { q with moving := false } } := by
  simp [motionComplete, hc]

theorem chipStep_oracle (r : RefChip) (hc : s.chip = .oracle) : chipStep r s = s := by
  simp [chipStep, hc]

theorem chipStep_reference (r : RefChip) (hc : s.chip = .reference q) :
    chipStep r s = { s with chip := .reference { fitChip s.params.chip r with
      latch := raiseLatch s.params.chip.layout q.latch r.latch } } := by
  simp [chipStep, hc]

end ChipSteps

/-- A register cut to its width keeps its low bits (20_memory.md R67). -/
theorem fitChip_get (c : ChipConst) (r : RefChip) (g : Reg) :
    (fitChip c r).regs.get g = r.regs.get g % 2 ^ c.width g :=
  (fitRegs_get c r.regs g).trans (mask_natCast _ _)

/-! ### The step, by what else is laid down first -/

section OtherAgents
variable {s : State} {rest : List Action}

theorem step_of_motionComplete {t : State} (hs : s.script = .motionComplete :: rest)
    (ht : motionComplete { s with script := rest } = t) : step s = .next t :=
  (step_of_script hs rfl).trans (congrArg Host.Outcome.next ht)

theorem step_of_chipStep {r : RefChip} {t : State} (hs : s.script = .chipStep r :: rest)
    (ht : chipStep r { s with script := rest } = t) : step s = .next t :=
  (step_of_script hs rfl).trans (congrArg Host.Outcome.next ht)

/-- Bytes that are no transaction are refused (notes/assumptions/16). -/
theorem step_of_invalid_frame {c : Context} {bs : List Byte} {e : DecodeError}
    (hs : s.script = .frame c bs :: rest) (hd : decodeFrame s.params.chip bs = .error e) :
    step s = .refused (.invalidFrame e) := by
  rw [step_of_script hs rfl]
  simp only [runAction, hd]

/-- With nothing laid down the environment's free choice runs, and is used up (notes/assumptions/4). -/
theorem step_of_nil (hs : s.script = []) :
    step s = runAction (Config.freeAction s.tick) { s with tick := s.tick + 1 } := by
  unfold step
  rw [beforeStep_of_nil hs]
  simp only [nextAction, afterChoice, hs]

end OtherAgents

/-- Settles O48: what is laid down first is the step, the steps of the chip go by the kind of chip, and events inside
the reference chip raise latched flags only. -/
theorem stepRunsTheOtherAgents : Obligations.StepRunsTheOtherAgents := by
  intro s m b l q r bs e rest
  refine ⟨fun hs => step_of_script hs rfl, fun hs => step_of_script hs rfl, fun hs => step_of_script hs rfl,
    fun hs => step_of_script hs rfl, fun hs => step_of_script hs rfl,
    fun hs hc => step_of_motionComplete hs (motionComplete_oracle hc),
    fun hs hc => step_of_motionComplete hs (motionComplete_reference hc),
    fun hs hc => step_of_chipStep hs (chipStep_oracle r hc), fun hs hc => ?_,
    step_of_invalid_frame, step_of_nil⟩
  refine ⟨_, step_of_chipStep hs (chipStep_reference r hc), ?_⟩
  exact ⟨rfl, rfl, fitChip_get _ r, fun _ hk => raiseLatch_active _ _ hk⟩

end Sys2Proof.Machine
